-- ==== Sys2Proof/Word.lean ====
section
/-! DEFINITION. The word type of the block: one byte, and finite byte strings (spec/00_scope.md R11). The block has no
other word: every number it handles is an unsigned natural (R12). -/

namespace Sys2Proof

/-- One byte, a value 0..255 (R11). -/
abbrev Byte := BitVec 8

/-- A byte string: a finite sequence of bytes, byte 0 first (R11). -/
abbrev Bytes := List Byte

end Sys2Proof
end

