-- ==== Sys2Proof/Syntax.lean ====
section
/-! DEFINITION. The block's input alphabet: the 26 events of spec/30_encoding.md R77 (one constructor of `Instr` per row
of spec/opcode_table.json), their opcodes as names, and the typed event record of R55 and R56 that carries one. -/

namespace Sys2Proof

/-- The tables CLASSIFY can be asked for (R56 `table`). -/
inductive Table where
  | job | tt | media | devStatus | event
deriving DecidableEq, Repr

/-- An event the block accepts, with its operands in the order of R77. A `bytes[n]` operand is a byte string of any
length: the wrong length is admitted and rejected by the event's rule (R56). `opt` operands are options. -/
inductive Instr where
  /-- 0x01 CHECKSUM (R82) -/
  | checksum (data : Bytes)
  /-- 0x02 ENC_NUM (R83) -/
  | encNum (value width : Nat)
  /-- 0x03 ENC_TEXT (R84) -/
  | encText (text : Bytes) (width : Nat) (pad : Byte)
  /-- 0x04 DEC_ASCII (R85) -/
  | decAscii (region : Bytes)
  /-- 0x05 DEC_LOCAL (R86) -/
  | decLocal (region : Bytes)
  /-- 0x06 DEC_NUM (R87) -/
  | decNum (region : Bytes)
  /-- 0x07 CLASSIFY (R88) -/
  | classify (table : Table) (code : Byte)
  /-- 0x08 ERR_LOOKUP (R89) -/
  | errLookup (code : Bytes)
  /-- 0x10 BUILD_FRAME (R100) -/
  | buildFrame (tid ts : Bytes) (jc : Byte) (payload : Bytes)
  /-- 0x11 PARSE_FRAME (R101) -/
  | parseFrame (data : Bytes)
  /-- 0x12 FIND_PACKET (R105) -/
  | findPacket (window : Bytes)
  /-- 0x20 BUILD_APPROVAL_REQ (R120) -/
  | buildApprovalReq (tid ts : Bytes) (transactionType : Byte) (amount tax serviceCharge installmentCount : Nat)
      (signaturePresent : Byte)
  /-- 0x21 BUILD_CANCEL_REQ (R121) -/
  | buildCancelReq (tid ts : Bytes) (cancelType transactionType : Byte)
      (amount tax serviceCharge installmentCount : Nat) (signaturePresent : Byte)
      (approvalNumber originalDate originalTime : Bytes) (additionalInfo : Option Bytes)
  /-- 0x22 DEC_APPROVAL_RSP (R124) -/
  | decApprovalRsp (payload : Bytes)
  /-- 0x23 DEC_CARDINQ_RSP (R127) -/
  | decCardinqRsp (payload : Bytes)
  /-- 0x24 DEC_DEVCHK_RSP (R128) -/
  | decDevchkRsp (payload : Bytes)
  /-- 0x25 DEC_EVENT_RSP (R129) -/
  | decEventRsp (payload : Bytes)
  /-- 0x30 CONNECT (R153) -/
  | connect (address : Bytes) (baud : Option Nat)
  /-- 0x31 DISCONNECT (R155) -/
  | disconnect
  /-- 0x32 SEND (R156) -/
  | send (frame : Bytes) (expectResponse : Bool)
  /-- 0x33 READ_REG (R164) -/
  | readReg (n : Nat)
  /-- 0x40 RX_CHUNK (R160) -/
  | rxChunk (chunk : Bytes)
  /-- 0x41 TX_DONE (R157) -/
  | txDone (ok : Bool)
  /-- 0x42 TICK (R158) -/
  | tick
  /-- 0x43 OPEN_DONE (R154) -/
  | openDone (ok : Bool)
  /-- 0x4F RESET (R215) -/
  | reset
deriving DecidableEq, Repr

/-- The listed opcodes by name, in the order of R77. Their numbers are `Opcode.byte` (Decode.lean). -/
inductive Opcode where
  | checksum | encNum | encText | decAscii | decLocal | decNum | classify | errLookup
  | buildFrame | parseFrame | findPacket
  | buildApprovalReq | buildCancelReq | decApprovalRsp | decCardinqRsp | decDevchkRsp | decEventRsp
  | connect | disconnect | send | readReg
  | rxChunk | txDone | tick | openDone | reset
deriving DecidableEq, Repr

/-- The operand types of R56. `bytesN` is `bytes[n]`: a record may carry a byte string of any length for it. -/
inductive OperandType where
  | bytes | bytesN | byte | nat | width | bool | table | optBytes | optNat
deriving DecidableEq, Repr

/-- A typed operand value of an event record (R55, R56). A `width` is carried as a natural; `absent` is an `opt` operand
that is not there. -/
inductive Operand where
  | bytes (s : Bytes)
  | byte (b : Byte)
  | nat (n : Nat)
  | bool (b : Bool)
  | table (t : Table)
  | absent
deriving DecidableEq, Repr

/-- An event record: "an 8-bit opcode followed by the operands" (R55). -/
structure EventRecord where
  opcode : Byte
  operands : List Operand
deriving DecidableEq, Repr

namespace Instr

/-- The pseudo-instruction SEND_NR (R79). -/
abbrev sendNr (frame : Bytes) : Instr := .send frame false

/-- The pseudo-instruction SEND_RR (R79). -/
abbrev sendRr (frame : Bytes) : Instr := .send frame true

end Instr

end Sys2Proof
end

