-- ==== Sys2Proof/WellFormed.lean ====
section
/-! DEFINITION. Which terms of `Instr` are events of the interface. The one operand type of R56 that the syntax does not
already bound is `width`, "a natural 1..255"; an operand outside its type is refused (R19). `bytes[n]` operands of the
wrong length are admitted (R56), so they are well-formed. The constraints on the configuration are
`Params.wellFormed` (Config.lean). -/

namespace Sys2Proof

/-- R56: a `width` is a natural 1..255. -/
def widthOk (w : Nat) : Bool := decide (1 ≤ w) && decide (w ≤ 255)

/-- An event whose operands are inside their types (R19, R56). -/
def Instr.wellFormed : Instr → Bool
  | .checksum _ => true
  | .encNum _ width => widthOk width
  | .encText _ width _ => widthOk width
  | .decAscii _ => true
  | .decLocal _ => true
  | .decNum _ => true
  | .classify _ _ => true
  | .errLookup _ => true
  | .buildFrame _ _ _ _ => true
  | .parseFrame _ => true
  | .findPacket _ => true
  | .buildApprovalReq _ _ _ _ _ _ _ _ => true
  | .buildCancelReq _ _ _ _ _ _ _ _ _ _ _ _ _ => true
  | .decApprovalRsp _ => true
  | .decCardinqRsp _ => true
  | .decDevchkRsp _ => true
  | .decEventRsp _ => true
  | .connect _ _ => true
  | .disconnect => true
  | .send _ _ => true
  | .readReg _ => true
  | .rxChunk _ => true
  | .txDone _ => true
  | .tick => true
  | .openDone _ => true
  | .reset => true

end Sys2Proof
end

