-- ==== Sys2Proof/Decode.lean ====
section
/-! DEFINITION. The decoder and the encoder of event records (spec/30_encoding.md R55, R56, R77, R78), the byte
serialisation that R55 illustrates, and the assembler text of R79. The interface is made of TYPED records: `decode` reads
a record, and the machine's input is a queue of records. The serialisation is one illustration of R55 on which no rule
depends; `readRecord` and `writeRecord` follow it, and fix what it leaves open (log entry 2): a `byte` is itself, a
`width` w is the byte w - 1, a `table` is the byte 0..4 in the order of R56, an `opt` operand is the tag byte 0x00
(absent) or 0x01 followed by the value. -/

namespace Sys2Proof

/-! ### The opcode map (R77) -/

/-- The number of each listed opcode (R77). -/
def Opcode.byte : Opcode → Byte
  | .checksum => 0x01
  | .encNum => 0x02
  | .encText => 0x03
  | .decAscii => 0x04
  | .decLocal => 0x05
  | .decNum => 0x06
  | .classify => 0x07
  | .errLookup => 0x08
  | .buildFrame => 0x10
  | .parseFrame => 0x11
  | .findPacket => 0x12
  | .buildApprovalReq => 0x20
  | .buildCancelReq => 0x21
  | .decApprovalRsp => 0x22
  | .decCardinqRsp => 0x23
  | .decDevchkRsp => 0x24
  | .decEventRsp => 0x25
  | .connect => 0x30
  | .disconnect => 0x31
  | .send => 0x32
  | .readReg => 0x33
  | .rxChunk => 0x40
  | .txDone => 0x41
  | .tick => 0x42
  | .openDone => 0x43
  | .reset => 0x4F

/-- Every listed opcode, in the order of R77. -/
def Opcode.all : List Opcode :=
  [.checksum, .encNum, .encText, .decAscii, .decLocal, .decNum, .classify, .errLookup, .buildFrame,
   .parseFrame, .findPacket, .buildApprovalReq, .buildCancelReq, .decApprovalRsp, .decCardinqRsp, .decDevchkRsp, .decEventRsp,
   .connect, .disconnect, .send, .readReg, .rxChunk, .txDone, .tick, .openDone, .reset]

/-- The listed opcode with number `b`; none when `b` is illegal (R78). -/
def Opcode.ofByte (b : Byte) : Option Opcode := Opcode.all.find? (fun o => o.byte == b)

/-- The operand types of each row of R77, in order. -/
def Opcode.signature : Opcode → List OperandType
  | .checksum => [.bytes]
  | .encNum => [.nat, .width]
  | .encText => [.bytes, .width, .byte]
  | .decAscii => [.bytes]
  | .decLocal => [.bytes]
  | .decNum => [.bytes]
  | .classify => [.table, .byte]
  | .errLookup => [.bytesN]
  | .buildFrame => [.bytes, .bytesN, .byte, .bytes]
  | .parseFrame => [.bytes]
  | .findPacket => [.bytes]
  | .buildApprovalReq => [.bytes, .bytesN, .byte, .nat, .nat, .nat, .nat, .byte]
  | .buildCancelReq => [.bytes, .bytesN, .byte, .byte, .nat, .nat, .nat, .nat, .byte, .bytes, .bytesN, .bytesN, .optBytes]
  | .decApprovalRsp => [.bytes]
  | .decCardinqRsp => [.bytes]
  | .decDevchkRsp => [.bytes]
  | .decEventRsp => [.bytes]
  | .connect => [.bytes, .optNat]
  | .disconnect => []
  | .send => [.bytes, .bool]
  | .readReg => [.nat]
  | .rxChunk => [.bytes]
  | .txDone => [.bool]
  | .tick => []
  | .openDone => [.bool]
  | .reset => []

/-- The mnemonic of each row of R77. -/
def Opcode.mnemonic : Opcode → String
  | .checksum => "CHECKSUM"
  | .encNum => "ENC_NUM"
  | .encText => "ENC_TEXT"
  | .decAscii => "DEC_ASCII"
  | .decLocal => "DEC_LOCAL"
  | .decNum => "DEC_NUM"
  | .classify => "CLASSIFY"
  | .errLookup => "ERR_LOOKUP"
  | .buildFrame => "BUILD_FRAME"
  | .parseFrame => "PARSE_FRAME"
  | .findPacket => "FIND_PACKET"
  | .buildApprovalReq => "BUILD_APPROVAL_REQ"
  | .buildCancelReq => "BUILD_CANCEL_REQ"
  | .decApprovalRsp => "DEC_APPROVAL_RSP"
  | .decCardinqRsp => "DEC_CARDINQ_RSP"
  | .decDevchkRsp => "DEC_DEVCHK_RSP"
  | .decEventRsp => "DEC_EVENT_RSP"
  | .connect => "CONNECT"
  | .disconnect => "DISCONNECT"
  | .send => "SEND"
  | .readReg => "READ_REG"
  | .rxChunk => "RX_CHUNK"
  | .txDone => "TX_DONE"
  | .tick => "TICK"
  | .openDone => "OPEN_DONE"
  | .reset => "RESET"

/-- The opcode of an event: "the opcode alone selects the event" (R55). -/
def Instr.opcode : Instr → Opcode
  | .checksum _ => .checksum
  | .encNum _ _ => .encNum
  | .encText _ _ _ => .encText
  | .decAscii _ => .decAscii
  | .decLocal _ => .decLocal
  | .decNum _ => .decNum
  | .classify _ _ => .classify
  | .errLookup _ => .errLookup
  | .buildFrame _ _ _ _ => .buildFrame
  | .parseFrame _ => .parseFrame
  | .findPacket _ => .findPacket
  | .buildApprovalReq _ _ _ _ _ _ _ _ => .buildApprovalReq
  | .buildCancelReq _ _ _ _ _ _ _ _ _ _ _ _ _ => .buildCancelReq
  | .decApprovalRsp _ => .decApprovalRsp
  | .decCardinqRsp _ => .decCardinqRsp
  | .decDevchkRsp _ => .decDevchkRsp
  | .decEventRsp _ => .decEventRsp
  | .connect _ _ => .connect
  | .disconnect => .disconnect
  | .send _ _ => .send
  | .readReg _ => .readReg
  | .rxChunk _ => .rxChunk
  | .txDone _ => .txDone
  | .tick => .tick
  | .openDone _ => .openDone
  | .reset => .reset

/-! ### Records to events -/

/-- Why a record is no event of R77. -/
inductive DecodeError where
  /-- The opcode is not in the map. The event is ADMITTED and rejected with ERR_ILLEGAL_OPCODE (R78). -/
  | illegalOpcode (op : Byte)
  /-- An operand is missing, surplus or outside its type: the record is refused (R19, R56). -/
  | operandOutsideType (op : Byte)
deriving DecidableEq, Repr

/-- An `opt bytes` operand. -/
def Operand.optBytes? : Operand → Option (Option Bytes)
  | .absent => some none
  | .bytes s => some (some s)
  | _ => none

/-- An `opt nat` operand. -/
def Operand.optNat? : Operand → Option (Option Nat)
  | .absent => some none
  | .nat n => some (some n)
  | _ => none

/-- The event with opcode `o` and operands `xs`, where they have the types of R77. -/
def decodeOperands (o : Opcode) (xs : List Operand) : Option Instr :=
  match o with
  | .checksum =>
    match xs with
    | [.bytes data] => some (.checksum data)
    | _ => none
  | .encNum =>
    match xs with
    | [.nat value, .nat width] => if widthOk width then some (.encNum value width) else none
    | _ => none
  | .encText =>
    match xs with
    | [.bytes text, .nat width, .byte pad] => if widthOk width then some (.encText text width pad) else none
    | _ => none
  | .decAscii =>
    match xs with
    | [.bytes region] => some (.decAscii region)
    | _ => none
  | .decLocal =>
    match xs with
    | [.bytes region] => some (.decLocal region)
    | _ => none
  | .decNum =>
    match xs with
    | [.bytes region] => some (.decNum region)
    | _ => none
  | .classify =>
    match xs with
    | [.table table, .byte code] => some (.classify table code)
    | _ => none
  | .errLookup =>
    match xs with
    | [.bytes code] => some (.errLookup code)
    | _ => none
  | .buildFrame =>
    match xs with
    | [.bytes tid, .bytes ts, .byte jc, .bytes payload] => some (.buildFrame tid ts jc payload)
    | _ => none
  | .parseFrame =>
    match xs with
    | [.bytes data] => some (.parseFrame data)
    | _ => none
  | .findPacket =>
    match xs with
    | [.bytes window] => some (.findPacket window)
    | _ => none
  | .buildApprovalReq =>
    match xs with
    | [.bytes tid, .bytes ts, .byte tt, .nat amount, .nat tax, .nat charge, .nat inst, .byte sig] => some (.buildApprovalReq tid ts tt amount tax charge inst sig)
    | _ => none
  | .buildCancelReq =>
    match xs with
    | [.bytes tid, .bytes ts, .byte ct, .byte tt, .nat amount, .nat tax, .nat charge, .nat inst, .byte sig, .bytes appr, .bytes date, .bytes time, info] => info.optBytes?.map (fun o => .buildCancelReq tid ts ct tt amount tax charge inst sig appr date time o)
    | _ => none
  | .decApprovalRsp =>
    match xs with
    | [.bytes payload] => some (.decApprovalRsp payload)
    | _ => none
  | .decCardinqRsp =>
    match xs with
    | [.bytes payload] => some (.decCardinqRsp payload)
    | _ => none
  | .decDevchkRsp =>
    match xs with
    | [.bytes payload] => some (.decDevchkRsp payload)
    | _ => none
  | .decEventRsp =>
    match xs with
    | [.bytes payload] => some (.decEventRsp payload)
    | _ => none
  | .connect =>
    match xs with
    | [.bytes address, baud] => baud.optNat?.map (fun o => .connect address o)
    | _ => none
  | .disconnect =>
    match xs with
    | [] => some .disconnect
    | _ => none
  | .send =>
    match xs with
    | [.bytes frame, .bool expect] => some (.send frame expect)
    | _ => none
  | .readReg =>
    match xs with
    | [.nat n] => some (.readReg n)
    | _ => none
  | .rxChunk =>
    match xs with
    | [.bytes chunk] => some (.rxChunk chunk)
    | _ => none
  | .txDone =>
    match xs with
    | [.bool ok] => some (.txDone ok)
    | _ => none
  | .tick =>
    match xs with
    | [] => some .tick
    | _ => none
  | .openDone =>
    match xs with
    | [.bool ok] => some (.openDone ok)
    | _ => none
  | .reset =>
    match xs with
    | [] => some .reset
    | _ => none

/-- The event a record carries (R55, R56, R77, R78). An illegal opcode "carries no operands"; whatever a record with one
carries, the opcode alone selects the event (log entry 3). -/
def decode (r : EventRecord) : Except DecodeError Instr :=
  match Opcode.ofByte r.opcode with
  | none => .error (.illegalOpcode r.opcode)
  | some o =>
    match decodeOperands o r.operands with
    | none => .error (.operandOutsideType r.opcode)
    | some i => .ok i

/-! ### Events to records -/

/-- The operands of an event, in the order of R77. -/
def Instr.operands : Instr → List Operand
  | .checksum data => [.bytes data]
  | .encNum value width => [.nat value, .nat width]
  | .encText text width pad => [.bytes text, .nat width, .byte pad]
  | .decAscii region => [.bytes region]
  | .decLocal region => [.bytes region]
  | .decNum region => [.bytes region]
  | .classify table code => [.table table, .byte code]
  | .errLookup code => [.bytes code]
  | .buildFrame tid ts jc payload => [.bytes tid, .bytes ts, .byte jc, .bytes payload]
  | .parseFrame data => [.bytes data]
  | .findPacket window => [.bytes window]
  | .buildApprovalReq tid ts tt amount tax charge inst sig => [.bytes tid, .bytes ts, .byte tt, .nat amount, .nat tax, .nat charge, .nat inst, .byte sig]
  | .buildCancelReq tid ts ct tt amount tax charge inst sig appr date time info => [.bytes tid, .bytes ts, .byte ct, .byte tt, .nat amount, .nat tax, .nat charge, .nat inst, .byte sig, .bytes appr, .bytes date, .bytes time, (info.elim .absent .bytes)]
  | .decApprovalRsp payload => [.bytes payload]
  | .decCardinqRsp payload => [.bytes payload]
  | .decDevchkRsp payload => [.bytes payload]
  | .decEventRsp payload => [.bytes payload]
  | .connect address baud => [.bytes address, (baud.elim .absent .nat)]
  | .disconnect => []
  | .send frame expect => [.bytes frame, .bool expect]
  | .readReg n => [.nat n]
  | .rxChunk chunk => [.bytes chunk]
  | .txDone ok => [.bool ok]
  | .tick => []
  | .openDone ok => [.bool ok]
  | .reset => []

/-- The record that carries an event: its opcode and its operands (R55). -/
def encode (i : Instr) : EventRecord := ⟨i.opcode.byte, i.operands⟩

/-! ### The byte serialisation of R55 -/

/-- Why bytes are not the serialisation of an event of R77. -/
inductive WireError where
  /-- The bytes end inside the record. -/
  | truncated
  /-- A Bool, `table` or `opt` tag byte has a value that stands for nothing. -/
  | badTag
  /-- The bytes are a record that is no event of R77. -/
  | event (e : DecodeError)
deriving DecidableEq, Repr

/-- "a natural as 32 bits little-endian" (R55): the four bytes of `n mod 2^32`. -/
def le32 (n : Nat) : Bytes :=
  [BitVec.ofNat 8 n, BitVec.ofNat 8 (n / 256), BitVec.ofNat 8 (n / 65536), BitVec.ofNat 8 (n / 16777216)]

/-- Reads a natural of 32 bits little-endian. -/
def readNat32 : Bytes → Except WireError (Nat × Bytes)
  | b0 :: b1 :: b2 :: b3 :: rest =>
    .ok (b0.toNat + 256 * b1.toNat + 65536 * b2.toNat + 16777216 * b3.toNat, rest)
  | _ => .error .truncated

/-- Reads "a 32-bit little-endian length followed by its bytes" (R55). -/
def readString (bs : Bytes) : Except WireError (Bytes × Bytes) :=
  match readNat32 bs with
  | .error e => .error e
  | .ok (n, rest) => if n ≤ rest.length then .ok (rest.take n, rest.drop n) else .error .truncated

/-- The byte of a table (log entry 2). -/
def Table.byte : Table → Byte
  | .job => 0
  | .tt => 1
  | .media => 2
  | .devStatus => 3
  | .event => 4

/-- The table of a byte. -/
def Table.ofByte (b : Byte) : Option Table :=
  if b = 0 then some .job else if b = 1 then some .tt else if b = 2 then some .media
  else if b = 3 then some .devStatus else if b = 4 then some .event else none

/-- Reads one operand of type `t`. -/
def readOperand (t : OperandType) (bs : Bytes) : Except WireError (Operand × Bytes) :=
  match t with
  | .bytes | .bytesN =>
    match readString bs with
    | .error e => .error e
    | .ok (s, rest) => .ok (.bytes s, rest)
  | .nat =>
    match readNat32 bs with
    | .error e => .error e
    | .ok (n, rest) => .ok (.nat n, rest)
  | .byte =>
    match bs with
    | [] => .error .truncated
    | b :: rest => .ok (.byte b, rest)
  | .width =>
    match bs with
    | [] => .error .truncated
    | b :: rest => .ok (.nat (b.toNat + 1), rest)
  | .bool =>
    match bs with
    | [] => .error .truncated
    | b :: rest => if b = 0 then .ok (.bool false, rest) else if b = 1 then .ok (.bool true, rest) else .error .badTag
  | .table =>
    match bs with
    | [] => .error .truncated
    | b :: rest =>
      match Table.ofByte b with
      | none => .error .badTag
      | some t => .ok (.table t, rest)
  | .optBytes =>
    match bs with
    | [] => .error .truncated
    | b :: bs' =>
      if b = 0 then .ok (.absent, bs')
      else if b = 1 then
        match readString bs' with
        | .error e => .error e
        | .ok (s, rest) => .ok (.bytes s, rest)
      else .error .badTag
  | .optNat =>
    match bs with
    | [] => .error .truncated
    | b :: bs' =>
      if b = 0 then .ok (.absent, bs')
      else if b = 1 then
        match readNat32 bs' with
        | .error e => .error e
        | .ok (n, rest) => .ok (.nat n, rest)
      else .error .badTag

/-- Reads the operands of a row, each in order. -/
def readOperands : List OperandType → Bytes → Except WireError (List Operand × Bytes)
  | [], bs => .ok ([], bs)
  | t :: ts, bs =>
    match readOperand t bs with
    | .error e => .error e
    | .ok (x, rest) =>
      match readOperands ts rest with
      | .error e => .error e
      | .ok (xs, rest') => .ok (x :: xs, rest')

/-- Reads one record: "the opcode byte, then each operand in order" (R55). An illegal opcode carries no operands (R78). -/
def readRecord : Bytes → Except WireError (EventRecord × Bytes)
  | [] => .error .truncated
  | op :: bs =>
    match Opcode.ofByte op with
    | none => .ok (⟨op, []⟩, bs)
    | some o =>
      match readOperands o.signature bs with
      | .error e => .error e
      | .ok (xs, rest) => .ok (⟨op, xs⟩, rest)

/-- Reads one event from its serialisation, with the bytes that follow it. Total on any bytes. -/
def decodeWire (bs : Bytes) : Except WireError (Instr × Bytes) :=
  match readRecord bs with
  | .error e => .error e
  | .ok (r, rest) =>
    match decode r with
    | .error e => .error (.event e)
    | .ok i => .ok (i, rest)

/-- The bytes of one operand under its type; nothing where the operand is not of the type. -/
def writeOperand : OperandType → Operand → Bytes
  | .bytes, .bytes s => le32 s.length ++ s
  | .bytesN, .bytes s => le32 s.length ++ s
  | .byte, .byte b => [b]
  | .nat, .nat n => le32 n
  | .width, .nat n => [BitVec.ofNat 8 (n - 1)]
  | .bool, .bool b => [if b then 1 else 0]
  | .table, .table t => [t.byte]
  | .optBytes, .absent => [0]
  | .optBytes, .bytes s => 1 :: (le32 s.length ++ s)
  | .optNat, .absent => [0]
  | .optNat, .nat n => 1 :: le32 n
  | _, _ => []

/-- The bytes of the operands of a row. -/
def writeOperands : List OperandType → List Operand → Bytes
  | t :: ts, x :: xs => writeOperand t x ++ writeOperands ts xs
  | _, _ => []

/-- The bytes of an event (R55). -/
def encodeWire (i : Instr) : Bytes := i.opcode.byte :: writeOperands i.opcode.signature i.operands

/-- An operand that 32-bit lengths and 32-bit naturals can carry. -/
def Operand.fitsWire : Operand → Bool
  | .bytes s => decide (s.length < 4294967296)
  | .nat n => decide (n < 4294967296)
  | _ => true

/-- An event whose operands the serialisation of R55 can carry. The interface itself has no such bound. -/
def Instr.fitsWire (i : Instr) : Bool := i.operands.all Operand.fitsWire

/-! ### Table words: bit 0 is the least significant bit of the first byte -/

/-- The first `k` bytes of the word `w`, least significant first. -/
def wordBytes : Nat → Nat → Bytes
  | 0, _ => []
  | k + 1, w => BitVec.ofNat 8 w :: wordBytes k (w / 256)

/-- The bytes of a table word of `nbits` bits, followed by zeros up to the longest record with zero operands (41 bytes,
BUILD_CANCEL_REQ). -/
def tableBytes (nbits w : Nat) : Bytes := wordBytes ((nbits + 7) / 8) w ++ List.replicate 41 0

/-- The record a table word stands for; where its bytes are no record, the bare opcode. -/
def tableRecord (nbits w : Nat) : EventRecord :=
  match readRecord (tableBytes nbits w) with
  | .ok (r, _) => r
  | .error _ => ⟨(tableBytes nbits w).headD 0, []⟩

/-- The event the decoder reads from a table word. -/
def decodeTableWord (nbits w : Nat) : Option Instr :=
  match decodeWire (tableBytes nbits w) with
  | .ok (i, _) => some i
  | .error _ => none

/-! ### Assembler text (R79) -/

/-- One hexadecimal digit, as R79 writes them. -/
def hexDigit (n : Nat) : String := ["0", "1", "2", "3", "4", "5", "6", "7", "8", "9", "A", "B", "C", "D", "E", "F"].getD n "?"

/-- A byte as two hexadecimal digits. -/
def hexByte (b : Byte) : String := hexDigit (b.toNat / 16) ++ hexDigit (b.toNat % 16)

/-- A table by its name in R56. -/
def Table.text : Table → String
  | .job => "JOB"
  | .tt => "TT"
  | .media => "MEDIA"
  | .devStatus => "DEVSTATUS"
  | .event => "EVENT"

/-- An operand as R79 writes it; a byte string in the form `x"02 41"`. -/
def Operand.text : Operand → String
  | .bytes s => "x\"" ++ " ".intercalate (s.map hexByte) ++ "\""
  | .byte b => "0x" ++ hexByte b
  | .nat n => n.repr
  | .bool b => if b then "true" else "false"
  | .table t => t.text
  | .absent => "-"

/-- R79: "A command is written `MNEMONIC op1, op2, ...` with the operands in the order of rule R77". -/
def Instr.text (i : Instr) : String :=
  match i.operands with
  | [] => i.opcode.mnemonic
  | xs => i.opcode.mnemonic ++ " " ++ ", ".intercalate (xs.map Operand.text)

end Sys2Proof
end

