-- ==== Sys2Proof/Config.lean ====
section
/-! DEFINITION. The configuration record `Cfg` of spec/00_scope.md R8, with the constraints of R8's "legal values" column
and of R10. A parameter that R8 marks OPEN has no value here: the machine after reset runs under the opaque constant
`Config.cfg`, about which nothing can be proved beyond its being well-formed. Every meaning reads the configuration from
the state it runs in, so every statement over all states is a statement over all well-formed configurations. -/

namespace Sys2Proof

/-- The six kinds of frame a job code names (spec/30_encoding.md R65; the variants of CLASSIFY JOB, R88). -/
inductive JobKind where
  | approvalReq | cancelReq | devchkRsp | eventRsp | approvalRsp | cardinqRsp
deriving DecidableEq, Repr

/-- The transaction response types of CLASSIFY TT (R88). -/
inductive TxType where
  | approved | rejected
deriving DecidableEq, Repr

/-- The media variants `P_MEDIA_TABLE` maps to (R8). The source says "IC/RF-or-MS/etc.", so the set is open
(spec/91_not_in_source.md N3): `other` names every further variant an implementation defines. -/
inductive Media where
  | ic | rfOrMs | other (id : Nat)
deriving DecidableEq, Repr

/-- The device-status variants `P_DEVSTATUS_TABLE` maps to (R8); `other` as in `Media`. -/
inductive DevStatus where
  | ok | fault | other (id : Nat)
deriving DecidableEq, Repr

/-- The event-type variants `P_EVENT_TABLE` maps to (R8); `other` as in `Media`. -/
inductive EventKind where
  | cardInserted | cardRemoved | other (id : Nat)
deriving DecidableEq, Repr

/-- `P_OVERFLOW_POLICY` (R8; spec/92_eei_decisions.md D6). -/
inductive OverflowPolicy where
  | reject | truncateHigh
deriving DecidableEq, Repr

/-- Which predicate `P_KR_VALID` is (R8), as plain data. `eucKr` is the predicate of spec/95_test_vectors.md section 1.
`unstated id` is a predicate the spec does not give: `Config.krValidUnstated id`, of which nothing is known. -/
inductive KrPredicate where
  | eucKr | unstated (id : Nat)
deriving DecidableEq, Repr

/-- `P_LINE_PARAMS`: data bits, stop bits and parity, opaque to the block (R8). DESIGN CHOICE: R8 gives the three components
no type, and each is a natural that stands for whatever value it has (log entry 16). -/
structure LineParams where
  dataBits : Nat
  stopBits : Nat
  parity : Nat
deriving DecidableEq, Repr

/-- `P_APPROVAL_RSP_LAYOUT`: the widths W1..W11 of spec/30_encoding.md R72, in order. -/
structure ApprovalLayout where
  cardNumber : Nat
  approvedAmount : Nat
  tax : Nat
  serviceCharge : Nat
  installmentCount : Nat
  approvalNumber : Nat
  salesDate : Nat
  salesTime : Nat
  transactionId : Nat
  merchantId : Nat
  terminalNumber : Nat
deriving DecidableEq, Repr

/-- `P_CARDINQ_LAYOUT`: the widths V1..V6 of spec/30_encoding.md R73, in order. -/
structure CardInqLayout where
  cardType : Nat
  cardNumber : Nat
  lastTransactionDateTime : Nat
  lastTransactionAmount : Nat
  cardBalance : Nat
  transactionStatus : Nat
deriving DecidableEq, Repr

/-- The parameters of R8, one field each, in R8's order. The two parameters with a "spec's choice" default take it unless
a configuration overrides it. A finite map is an association list; its first entry for a key counts. -/
structure Params where
  stx : Byte
  etx : Byte
  ack : Byte
  nak : Byte
  jcApprovalReq : Byte
  jcCancelReq : Byte
  jcDevchkRsp : Byte
  jcEventRsp : Byte
  jcApprovalRsp : Byte
  jcCardinqRsp : Byte
  ttApproved : Byte
  ttRejected : Byte
  mediaTable : List (Byte × Media)
  devStatusTable : List (Byte × DevStatus)
  eventTable : List (Byte × EventKind)
  errTable : List ((Byte × Byte) × Bytes)
  krPredicate : KrPredicate
  maxAttempts : Nat
  ackTimeout : Nat
  rspTimeout : Nat
  rxbufCap : Nat := 65572
  overflowPolicy : OverflowPolicy := .reject
  wApprno : Nat
  wOdate : Nat
  wOtime : Nat
  approvalLayout : ApprovalLayout
  issuerCodeW : Nat
  acquirerCodeW : Nat
  cardInqLayout : CardInqLayout
  lineParams : LineParams
  defaultBaud : Nat
deriving DecidableEq, Repr

namespace Params

/-- An "ASCII byte" (R8, the rows of the last five job codes and of the transaction types): a byte of the ASCII code
table, control characters included. DEDUCED: R8 gives these rows no range (log entry 13). -/
def asciiByte (b : Byte) : Bool := decide (b.toNat ≤ 0x7F)

/-- An "ASCII byte 0x20..0x7E" (R8, the row of `P_JC_APPROVAL_REQ` and no other). -/
def printableByte (b : Byte) : Bool := decide (0x20 ≤ b.toNat) && decide (b.toNat ≤ 0x7E)

/-- The six job codes, in R8's order. -/
def jobCodes (p : Params) : List Byte :=
  [p.jcApprovalReq, p.jcCancelReq, p.jcDevchkRsp, p.jcEventRsp, p.jcApprovalRsp, p.jcCardinqRsp]

/-- R10: `P_ACK != P_NAK`. -/
def handshakeDistinct (p : Params) : Bool := decide (p.ack ≠ p.nak)

/-- R8 and R10: the job codes are ASCII bytes, the first of them in 0x20..0x7E, and pairwise distinct. -/
def jobCodesOk (p : Params) : Bool :=
  printableByte p.jcApprovalReq && p.jobCodes.all asciiByte && decide p.jobCodes.Nodup

/-- R8 and R10: the two transaction types are distinct ASCII bytes. -/
def txTypesOk (p : Params) : Bool :=
  asciiByte p.ttApproved && asciiByte p.ttRejected && decide (p.ttApproved ≠ p.ttRejected)

/-- R8: at least one attempt, one tick in each wait. -/
def countsOk (p : Params) : Bool :=
  decide (1 ≤ p.maxAttempts) && decide (1 ≤ p.ackTimeout) && decide (1 ≤ p.rspTimeout)

/-- R8: `P_RXBUF_CAP >= 37`. -/
def capOk (p : Params) : Bool := decide (37 ≤ p.rxbufCap)

/-- R8 and R10: `P_W_APPRNO`, `P_W_ODATE`, `P_W_OTIME` are at least 1 and sum to 26. -/
def cancelWidthsOk (p : Params) : Bool :=
  decide (1 ≤ p.wApprno) && decide (1 ≤ p.wOdate) && decide (1 ≤ p.wOtime) &&
    decide (p.wApprno + p.wOdate + p.wOtime = 26)

/-- R8: `P_ISSUER_CODE_W` and `P_ACQUIRER_CODE_W` are naturals 0..20. -/
def codeWidthsOk (p : Params) : Bool := decide (p.issuerCodeW ≤ 20) && decide (p.acquirerCodeW ≤ 20)

/-- A configuration that meets R8's legal values and R10's constraints. -/
def wellFormed (p : Params) : Bool :=
  p.handshakeDistinct && p.jobCodesOk && p.txTypesOk && p.countsOk && p.capOk && p.cancelWidthsOk && p.codeWidthsOk

end Params

namespace Config

/-- A predicate `P_KR_VALID` the spec does not give (R8 OPEN; spec/93_implementation_defined.md I10): a free value. -/
opaque krValidUnstated (id : Nat) : Bytes → Bool

/-- The parameters of the example configuration EX (spec/95_test_vectors.md section 1), used by the tests only. The opaque
symbols `LP` and `BD` are given as zeros: no vector depends on them. -/
def ex : Params where
  stx := 0x02
  etx := 0x03
  ack := 0x06
  nak := 0x15
  jcApprovalReq := 0x42
  jcCancelReq := 0x43
  jcDevchkRsp := 0x61
  jcEventRsp := 0x40
  jcApprovalRsp := 0x62
  jcCardinqRsp := 0x64
  ttApproved := 0x30
  ttRejected := 0x31
  mediaTable := [(0x49, .ic), (0x52, .rfOrMs)]
  devStatusTable := [(0x4F, .ok), (0x58, .fault)]
  eventTable := [(0x49, .cardInserted), (0x4F, .cardRemoved)]
  errTable := [((0x30, 0x37), [0x43, 0x41, 0x52, 0x44, 0x20, 0x45, 0x58, 0x50, 0x49, 0x52, 0x45, 0x44])]
  krPredicate := .eucKr
  maxAttempts := 3
  ackTimeout := 3
  rspTimeout := 10
  wApprno := 12
  wOdate := 8
  wOtime := 6
  approvalLayout := ⟨20, 10, 8, 8, 2, 12, 8, 6, 12, 15, 10⟩
  issuerCodeW := 4
  acquirerCodeW := 4
  cardInqLayout := ⟨1, 20, 14, 10, 10, 1⟩
  lineParams := ⟨0, 0, 0⟩
  defaultBaud := 0

end Config

/-- A configuration of the block: parameters that are well-formed. R10: "An instance that breaks a constraint is
ill-formed and the model refuses it": an ill-formed record is no `Cfg`, so the model gives it no step (R19). -/
structure Cfg where
  params : Params := Config.ex
  wf : params.wellFormed = true := by decide
deriving DecidableEq, Repr, Inhabited

namespace Config

/-- The configuration the block is built with. OPEN (R8): nothing is known of it but that it is well-formed. -/
opaque cfg : Cfg

/-- The example configuration EX of spec/95_test_vectors.md section 1. -/
def exCfg : Cfg := { params := ex, wf := by decide }

end Config

end Sys2Proof
end

