-- ==== Sys2Proof/Machine/State.lean ====
section
/-! DEFINITION. The state of the block (spec/10_state.md R21) as plain data, the records its output logs hold
(spec/30_encoding.md R57 to R59 and the output records of the command rules), and the state at reset (R39).
The block has no addressed memory (spec/20_memory.md R40): its byte stores are fields of this record. -/

namespace Sys2Proof.Machine

/-- The send state machine (R24). -/
inductive Phase where
  | idle | txDrain | ackWait | rspWait
deriving DecidableEq, Repr

/-- The frame-validity reasons of PARSE_FRAME (spec/60_exceptions.md R191). -/
inductive Reason where
  | valid | tooShort | badStx | lenMismatch | badEtx | badBcc
deriving DecidableEq, Repr

/-- The scanner statuses of FIND_PACKET (R192); `noFrame` is NONE, "no frame yet". -/
inductive ScanStatus where
  | noFrame | incomplete | complete
deriving DecidableEq, Repr

/-- The result codes (R190), by name. Their numbers are `ResultCode.number` (Flags.lean). -/
inductive ResultCode where
  | ok | notConnected | busy | maxRetries | responseTimeout | disconnecting | writeFailed | alreadyConnected | openFailed
  | valueTooLarge | payloadTooLong | fieldTooLong | decodeShort | badOperand | illegalOpcode
deriving DecidableEq, Repr

/-- The closed variants of CLASSIFY (spec/40_field_codec.md R88). -/
inductive Variant where
  | job (k : JobKind)
  | tt (t : TxType)
  | media (m : Media)
  | devStatus (d : DevStatus)
  | event (e : EventKind)
  | unrecognized
deriving DecidableEq, Repr

/-- The output of CLASSIFY (R88). -/
structure Classified where
  variant : Variant
  raw : Byte
deriving DecidableEq, Repr

/-- The output of DEC_NUM (R87). -/
structure NumField where
  value : Nat
  numOk : Bool
deriving DecidableEq, Repr

/-- The output of DEC_LOCAL (R86). -/
structure LocalText where
  text : Bytes
  krOk : Bool
deriving DecidableEq, Repr

/-- The output of ERR_LOOKUP (R89). -/
structure ErrMessage where
  found : Bool
  message : Bytes
deriving DecidableEq, Repr

/-- The output of PARSE_FRAME (spec/41_frame_codec.md R101). -/
structure FrameHdr where
  isValid : Bool
  reason : Reason
  tidRaw : Bytes
  tid : Bytes
  ts : Bytes
  jc : Byte
  rc : Byte
  len : Nat
  payload : Bytes
deriving DecidableEq, Repr

/-- The output of FIND_PACKET (R105). -/
structure Scan where
  status : ScanStatus
  offset : Nat
  length : Nat
deriving DecidableEq, Repr

/-- The reject message of an approval response (spec/42_messages.md R126). -/
structure RejectMessage where
  text : Bytes
  krOk : Bool
  fromTable : Bool
deriving DecidableEq, Repr

/-- The output of DEC_APPROVAL_RSP (R124 to R126). -/
structure ApprovalRsp where
  transactionType : Classified
  transactionMedia : Classified
  cardNumber : Bytes
  approvedAmount : NumField
  tax : NumField
  serviceCharge : NumField
  installmentCount : NumField
  approvalNumber : Bytes
  salesDate : Bytes
  salesTime : Bytes
  transactionId : Bytes
  merchantId : Bytes
  terminalNumber : Bytes
  issuerCode : Bytes
  issuerName : LocalText
  acquirerCode : Bytes
  acquirerName : LocalText
  isRejected : Bool
  rejectCode : Option Bytes
  rejectMessage : Option RejectMessage
deriving DecidableEq, Repr

/-- The output of DEC_CARDINQ_RSP (R127). -/
structure CardInqRsp where
  transactionMedia : Classified
  cardType : Bytes
  cardNumber : Bytes
  lastTransactionDateTime : Bytes
  lastTransactionAmount : NumField
  cardBalance : NumField
  transactionStatus : Bytes
deriving DecidableEq, Repr

/-- The output of DEC_DEVCHK_RSP (R128). -/
structure DevchkRsp where
  status0 : Classified
  status1 : Classified
  status2 : Classified
  status3 : Classified
deriving DecidableEq, Repr

/-- The response of a send that ended with one: the frame and its parsed header (spec/43_protocol_engine.md R151). -/
structure Response where
  frame : Bytes
  hdr : FrameHdr
deriving DecidableEq, Repr

/-- The output records of the commands (R57). `empty` is the empty record of CONNECT and DISCONNECT. -/
inductive Out where
  | bcc (b : Byte)
  | field (s : Bytes)
  | text (s : Bytes)
  | localText (t : LocalText)
  | num (n : NumField)
  | classified (c : Classified)
  | errMessage (m : ErrMessage)
  | frame (s : Bytes)
  | parsed (h : FrameHdr)
  | scan (r : Scan)
  | approvalRsp (r : ApprovalRsp)
  | cardInqRsp (r : CardInqRsp)
  | devchkRsp (r : DevchkRsp)
  | eventRsp (eventType : Classified)
  | empty
  | response (r : Option Response)
  | value (v : Nat)
deriving DecidableEq, Repr

/-- A result record `Result{op, code, out}` (R57). -/
structure ResultRec where
  op : Byte
  code : ResultCode
  out : Option Out
deriving DecidableEq, Repr

/-- A notification (R58). -/
inductive Notification where
  | connected
  | disconnected
  | event (frame : Bytes) (hdr : FrameHdr)
  | unexpectedPacket (frame : Bytes) (hdr : FrameHdr)
deriving DecidableEq, Repr

/-- A request to the channel provider (R59): `Open{address, baud, line}` or `Close`. -/
inductive ChanReq where
  | openChannel (address : Bytes) (baud : Nat) (line : LineParams)
  | close
deriving DecidableEq, Repr

/-- One entry of the merged output trace, "which a model may keep" (spec/20_memory.md R50): what was appended, and to
which log. -/
inductive Output where
  | tx (s : Bytes)
  | chan (r : ChanReq)
  | note (n : Notification)
  | result (r : ResultRec)
deriving DecidableEq, Repr

/-- The state of the block: the thirteen fields of R21, and three fields of the model's own: `trace`, the merged output
trace of R50; `input`, the event records delivered to the block and not yet taken (R20, R197); `cfg`, the configuration,
which is fixed (R36). -/
structure State where
  connected : Bool
  opening : Bool
  phase : Phase
  attempt : Nat
  expect : Bool
  txframe : Bytes
  timer : Nat
  rxbuf : Bytes
  rxOverflow : Bool
  txlog : List Bytes
  chanreq : List ChanReq
  notes : List Notification
  results : List ResultRec
  trace : List Output
  input : List EventRecord
  cfg : Cfg
deriving DecidableEq, Repr

/-- The parameters the block runs under. -/
abbrev State.params (s : State) : Params := s.cfg.params

/-- The block never faults ("the block never halts or faults", spec/60_exceptions.md R194): there is no fault. -/
inductive Fault where
deriving DecidableEq, Repr

/-- Why a step has no meaning. -/
inductive Refusal where
  /-- Raised by an arm of `exec` whose instruction has no meaning yet. Safe: nothing is claimed of it. No arm raises it. -/
  | notModelled (mnemonic : String)
  /-- Raised by `step` when the next event record has operands that are not of the types of its row: "A model gives a
  refused input no step" (R19, R56). Safe: the interface does not admit such a record. -/
  | operandOutsideType (opcode : Byte)
deriving DecidableEq, Repr

/-- The state at power-up and after RESET with empty logs (R39, R216). No event has been delivered, and the configuration
is the opaque `Config.cfg` (log entries 1 and 4). -/
def State.reset : State where
  connected := false
  opening := false
  phase := .idle
  attempt := 0
  expect := false
  txframe := []
  timer := 0
  rxbuf := []
  rxOverflow := false
  txlog := []
  chanreq := []
  notes := []
  results := []
  trace := []
  input := []
  cfg := Config.cfg

end Sys2Proof.Machine
end

