-- ==== Sys2Proof/Machine/Flags.lean ====
section
/-! DEFINITION. The predicates and codes the block computes. It has no flag register (spec/10_state.md R34): a flag is a
field of a result record, computed here from bytes. -/

namespace Sys2Proof.Machine

/-- `isWS(b)`: exactly 0x09..0x0D and 0x20 (spec/00_scope.md R16). -/
def isWS (b : Byte) : Bool :=
  b == 0x09 || b == 0x0A || b == 0x0B || b == 0x0C || b == 0x0D || b == 0x20

/-- `isDigit(b)`: exactly 0x30..0x39 (R16). -/
def isDigit (b : Byte) : Bool := decide (0x30 ≤ b.toNat) && decide (b.toNat ≤ 0x39)

/-- A byte 0xA1..0xFE (spec/95_test_vectors.md section 1). -/
def isKrByte (b : Byte) : Bool := decide (0xA1 ≤ b.toNat) && decide (b.toNat ≤ 0xFE)

/-- The predicate `P_KR_VALID` of the example configuration (spec/95_test_vectors.md section 1): units of one byte below
0x80, or of two bytes each in 0xA1..0xFE. -/
def eucKrValid : Bytes → Bool
  | [] => true
  | [a] => decide (a.toNat < 0x80)
  | a :: b :: rest =>
    if a.toNat < 0x80 then eucKrValid (b :: rest) else isKrByte a && isKrByte b && eucKrValid rest

/-- `P_KR_VALID(t)`, with "`P_KR_VALID` of the empty string is true" (spec/40_field_codec.md R86). -/
def krValid (p : Params) (t : Bytes) : Bool :=
  match p.krPredicate with
  | .eucKr => eucKrValid t
  | .unstated id => t.isEmpty || Config.krValidUnstated id t

/-- `num_ok` (R87): the cleaned field is not empty and holds only digits. -/
def numOk (t : Bytes) : Bool := !t.isEmpty && t.all isDigit

/-- `isRejected` (spec/42_messages.md R124): every type but the approved one. -/
def isRejected (p : Params) (tt : Byte) : Bool := tt != p.ttApproved

/-- The number of a result code (spec/60_exceptions.md R190). -/
def ResultCode.number : ResultCode → Nat
  | .ok => 0
  | .notConnected => 1
  | .busy => 2
  | .maxRetries => 3
  | .responseTimeout => 4
  | .disconnecting => 5
  | .writeFailed => 6
  | .alreadyConnected => 7
  | .openFailed => 8
  | .valueTooLarge => 16
  | .payloadTooLong => 17
  | .fieldTooLong => 18
  | .decodeShort => 19
  | .badOperand => 20
  | .illegalOpcode => 21

/-- The number of a frame-validity reason (R191). -/
def Reason.number : Reason → Nat
  | .valid => 0
  | .tooShort => 1
  | .badStx => 2
  | .lenMismatch => 3
  | .badEtx => 4
  | .badBcc => 5

/-- The number of a scanner status (R192). -/
def ScanStatus.number : ScanStatus → Nat
  | .noFrame => 0
  | .incomplete => 1
  | .complete => 2

/-- The code of a phase in register 1 (spec/10_state.md R35). -/
def Phase.code : Phase → Nat
  | .idle => 0
  | .txDrain => 1
  | .ackWait => 2
  | .rspWait => 3

end Sys2Proof.Machine
end

