-- ==== Sys2Proof/Machine/Ops.lean ====
section
/-! DEFINITION. The named operations over byte strings and over the state (spec/00_scope.md R11, R13 to R16): slices and
reads of the byte stores, the output logs, and how an error is taken (R15, spec/60_exceptions.md R194, R195): the block
has no trap, no saved state and no return from one; an error is a result record. -/

namespace Sys2Proof.Machine

/-! ### Byte strings -/

/-- `s[i..j)`, empty when `j <= i` (R11). R11 gives no slice that ends outside the string; DESIGN CHOICE: the part inside
(log entry 8). No meaning takes such a slice. -/
def slice (s : Bytes) (i j : Nat) : Bytes := (s.drop i).take (j - i)

/-- `s[i]` (R11). DESIGN CHOICE: 0 outside the string; every rule checks `i < |s|` before it reads (log entry 8). -/
def byteAt (s : Bytes) (i : Nat) : Byte := s.getD i 0

/-- `MemRead(s, off, n)`, "defined only when `off + n <= |s|`" (R14). DESIGN CHOICE: outside the string it gives the part
inside, which may be shorter than `n` (log entry 8). -/
def memRead (s : Bytes) (off n : Nat) : Bytes := slice s off (off + n)

/-- `MemWrite(s, off, n, v)` for the `n = |v|` bytes of `v` (R14), which replaces bytes of `s`. DESIGN CHOICE: outside the
string, `off + n > |s|`, the bytes of `v` follow those of `s` before `off`, and the string grows (log entry 8). -/
def memWrite (s : Bytes) (off : Nat) (v : Bytes) : Bytes := s.take off ++ v ++ s.drop (off + v.length)

/-- `xor(s)`, 0 for the empty string (R16). -/
def xorBytes : Bytes → Byte
  | [] => 0
  | b :: s => b ^^^ xorBytes s

/-- `le16(v)` of a `u16` (R16). DESIGN CHOICE: a larger `v` gives `v mod 65536`; no meaning passes one (log entry 8). -/
def le16 (v : Nat) : Bytes := [BitVec.ofNat 8 (v % 256), BitVec.ofNat 8 (v / 256)]

/-- `rd16(s, off)` (R16). -/
def rd16 (s : Bytes) (off : Nat) : Nat := (byteAt s off).toNat + 256 * (byteAt s (off + 1)).toNat

/-- `find(s, b)`: the least `i` with `s[i] = b`, or NONE (R16). -/
def find : Bytes → Byte → Option Nat
  | [], _ => none
  | a :: s, b => if a = b then some 0 else (find s b).map (· + 1)

/-! ### The output logs (R14, spec/10_state.md R31); each append also enters the merged trace (spec/20_memory.md R50) -/

/-- `TxEmit(t)`: a channel write. -/
def State.txEmit (t : Bytes) (s : State) : State :=
  { s with txlog := s.txlog ++ [t], trace := s.trace ++ [.tx t] }

/-- `chanreq append r`: a request to the channel provider. -/
def State.request (r : ChanReq) (s : State) : State :=
  { s with chanreq := s.chanreq ++ [r], trace := s.trace ++ [.chan r] }

/-- `Notify(n)`. -/
def State.notify (n : Notification) (s : State) : State :=
  { s with notes := s.notes ++ [n], trace := s.trace ++ [.note n] }

/-- `Result(r)`. -/
def State.result (r : ResultRec) (s : State) : State :=
  { s with results := s.results ++ [r], trace := s.trace ++ [.result r] }

/-- A command's result on success: `Result{op, 0, out}` (spec/30_encoding.md R57). -/
def State.succeed (op : Byte) (out : Out) (s : State) : State := s.result ⟨op, .ok, some out⟩

/-- `raise <Error>`, the one way an error is taken (R15, R194): `Result{op, code, none}`, and nothing else changes. -/
def State.raiseError (op : Byte) (code : ResultCode) (s : State) : State := s.result ⟨op, code, none⟩

/-- A codec command ends with its output or its error (spec/40_field_codec.md R80). -/
def State.answer (op : Byte) (r : Except ResultCode Out) (s : State) : State :=
  match r with
  | .ok out => s.succeed op out
  | .error code => s.raiseError op code

/-- An event with an illegal opcode "is admitted, changes no engine state and appends
`Result{op, ERR_ILLEGAL_OPCODE, none}`" (spec/30_encoding.md R78). -/
def State.takeIllegalOpcode (op : Byte) (s : State) : State := s.raiseError op .illegalOpcode

/-! ### Fetch -/

/-- Takes the next event record from the input queue (spec/10_state.md R20: one event per step, in delivery order). -/
def State.takeRecord (rest : List EventRecord) (s : State) : State := { s with input := rest }

/-- Puts a record where the next step takes its event. -/
def State.deliver (r : EventRecord) (s : State) : State := { s with input := r :: s.input }

end Sys2Proof.Machine
end

