-- ==== Sys2Proof/Machine/Operands.lean ====
section
/-! DEFINITION. The field encoders and decoders shared by the commands (spec/40_field_codec.md), the frame primitives
(spec/41_frame_codec.md) and the layout reader (spec/42_messages.md R123). All are functions of bytes and parameters. -/

namespace Sys2Proof.Machine

/-! ### Decimal and text fields -/

/-- The ASCII digit of `n < 10`. -/
def digit (n : Nat) : Byte := BitVec.ofNat 8 (0x30 + n)

/-- The decimal digits of `v`, least significant first; `fuel` bounds their number. -/
def decRev : Nat → Nat → Bytes
  | 0, _ => []
  | fuel + 1, v => if v < 10 then [digit v] else digit (v % 10) :: decRev fuel (v / 10)

/-- `dec(v)`: the shortest decimal ASCII string, "0" for 0 (spec/00_scope.md R16). A number has at most as many decimal as
binary digits. -/
def dec (v : Nat) : Bytes := (decRev (v.log2 + 1) v).reverse

/-- ENC_NUM's pseudocode (R83). -/
def encNumField (policy : OverflowPolicy) (value width : Nat) : Except ResultCode Bytes :=
  let d := dec value
  if d.length ≤ width then .ok (List.replicate (width - d.length) 0x30 ++ d)
  else match policy with
    | .reject => .error .valueTooLarge
    | .truncateHigh => .ok (slice d (d.length - width) d.length)

/-- Consecutive numeric fields `N(v1, w1) ++ N(v2, w2) ++ ...`: the first that does not fit stops the builder
(spec/42_messages.md, opening; spec/60_exceptions.md R196). -/
def encNumFields (policy : OverflowPolicy) : List (Nat × Nat) → Except ResultCode Bytes
  | [] => .ok []
  | (v, w) :: rest =>
    match encNumField policy v w with
    | .error e => .error e
    | .ok f =>
      match encNumFields policy rest with
      | .error e => .error e
      | .ok fs => .ok (f ++ fs)

/-- ENC_TEXT's pseudocode (R84): fit or truncate. -/
def encTextField (text : Bytes) (width : Nat) (pad : Byte) : Bytes :=
  if width ≤ text.length then slice text 0 width else text ++ List.replicate (width - text.length) pad

/-- `clean(r)` (R81): removes every 0x00, then leading and trailing whitespace. -/
def clean (r : Bytes) : Bytes :=
  (((r.filter (· != 0)).dropWhile isWS).reverse.dropWhile isWS).reverse

/-- The value of a digit string, most significant digit first (R87). -/
def digitsValue (t : Bytes) : Nat := t.foldl (fun acc b => acc * 10 + (b.toNat - 0x30)) 0

/-- DEC_NUM's pseudocode (R87). -/
def decNumField (region : Bytes) : NumField :=
  let t := clean region
  if numOk t then ⟨digitsValue t, true⟩ else ⟨0, false⟩

/-- DEC_LOCAL's pseudocode (R86). -/
def decLocalField (p : Params) (region : Bytes) : LocalText :=
  let t := clean region
  ⟨t, krValid p t⟩

/-! ### Code tables -/

/-- The JOB variant of a byte (R88). -/
def classifyJob (p : Params) (code : Byte) : Variant :=
  if code = p.jcApprovalReq then .job .approvalReq
  else if code = p.jcCancelReq then .job .cancelReq
  else if code = p.jcDevchkRsp then .job .devchkRsp
  else if code = p.jcEventRsp then .job .eventRsp
  else if code = p.jcApprovalRsp then .job .approvalRsp
  else if code = p.jcCardinqRsp then .job .cardinqRsp
  else .unrecognized

/-- The TT variant of a byte (R88). -/
def classifyTt (p : Params) (code : Byte) : Variant :=
  if code = p.ttApproved then .tt .approved
  else if code = p.ttRejected then .tt .rejected
  else .unrecognized

/-- CLASSIFY's pseudocode (R88). -/
def classifyCode (p : Params) (table : Table) (code : Byte) : Classified :=
  let v := match table with
    | .job => classifyJob p code
    | .tt => classifyTt p code
    | .media => (p.mediaTable.lookup code).elim .unrecognized .media
    | .devStatus => (p.devStatusTable.lookup code).elim .unrecognized .devStatus
    | .event => (p.eventTable.lookup code).elim .unrecognized .event
  ⟨v, code⟩

/-- `P_ERR_TABLE(code)` of a two-byte code (spec/00_scope.md R8); undefined for any other string. -/
def errTableMessage (p : Params) : Bytes → Option Bytes
  | [a, b] => p.errTable.lookup (a, b)
  | _ => none

/-! ### Frames -/

/-- BUILD_FRAME's pseudocode (spec/41_frame_codec.md R100). -/
def buildFrameBytes (p : Params) (tid ts : Bytes) (jc : Byte) (payload : Bytes) : Except ResultCode Bytes :=
  if ts.length ≠ 14 then .error .badOperand
  else if 65535 < payload.length then .error .payloadTooLong
  else
    let f := [p.stx] ++ encTextField tid 16 0 ++ ts ++ [jc] ++ [0] ++ le16 payload.length ++ payload ++ [p.etx]
    .ok (f ++ [xorBytes f])

/-- `Invalid(r)` (R101, R103). -/
def invalidHdr (r : Reason) : FrameHdr :=
  { isValid := false, reason := r, tidRaw := [], tid := [], ts := [], jc := 0, rc := 0, len := 0, payload := [] }

/-- PARSE_FRAME's pseudocode (R101), its checks in the order of R102. -/
def parseFrameHdr (p : Params) (data : Bytes) : FrameHdr :=
  let n := data.length
  if n < 37 then invalidHdr .tooShort
  else if byteAt data 0 ≠ p.stx then invalidHdr .badStx
  else
    let l := rd16 data 33
    if n ≠ 37 + l then invalidHdr .lenMismatch
    else if byteAt data (35 + l) ≠ p.etx then invalidHdr .badEtx
    else if byteAt data (36 + l) ≠ xorBytes (slice data 0 (36 + l)) then invalidHdr .badBcc
    else
      { isValid := true, reason := .valid, tidRaw := slice data 1 17, tid := clean (slice data 1 17),
        ts := slice data 17 31, jc := byteAt data 31, rc := byteAt data 32, len := l,
        payload := slice data 35 (35 + l) }

/-- FIND_PACKET's pseudocode (R105). -/
def scanWindow (p : Params) (window : Bytes) : Scan :=
  match find window p.stx with
  | none => ⟨.noFrame, 0, 0⟩
  | some i =>
    if window.length - i < 35 then ⟨.incomplete, i, 0⟩
    else
      let l := rd16 window (i + 33)
      let total := 37 + l
      if total ≤ window.length - i ∧ byteAt window (i + 35 + l) = p.etx then ⟨.complete, i, total⟩
      else ⟨.incomplete, i, 0⟩

/-! ### Response layouts -/

/-- Cuts a payload into contiguous fields of the given widths. -/
def splitFields : List Nat → Bytes → List Bytes
  | [], _ => []
  | w :: ws, s => s.take w :: splitFields ws (s.drop w)

/-- `fields(payload, widths)` (spec/42_messages.md R123): none where the payload is shorter than the layout. -/
def fields (payload : Bytes) (widths : List Nat) : Option (List Bytes) :=
  if payload.length < widths.sum then none else some (splitFields widths payload)

/-- Field `j` of a cut payload, counting from 1 as the layout tables do. -/
def fieldAt (fs : List Bytes) (j : Nat) : Bytes := fs.getD (j - 1) []

/-- The widths of the approval response: 1, 1, W1..W11, 20, 20 (spec/30_encoding.md R72). -/
def approvalWidths (l : ApprovalLayout) : List Nat :=
  [1, 1, l.cardNumber, l.approvedAmount, l.tax, l.serviceCharge, l.installmentCount, l.approvalNumber, l.salesDate,
    l.salesTime, l.transactionId, l.merchantId, l.terminalNumber, 20, 20]

/-- The widths of the card-inquiry response: 1, V1..V6 (R73). -/
def cardInqWidths (l : CardInqLayout) : List Nat :=
  [1, l.cardType, l.cardNumber, l.lastTransactionDateTime, l.lastTransactionAmount, l.cardBalance, l.transactionStatus]

end Sys2Proof.Machine
end

