-- ==== Sys2Proof/Machine/Codec.lean ====
section
/-! DEFINITION. The field codec commands, opcodes 0x01 to 0x08 (spec/40_field_codec.md). Each is pure: it reads its
operands and the configuration, and its only effect is one result record (R80). -/

namespace Sys2Proof.Machine

/-- CHECKSUM (R82). -/
def execChecksum (data : Bytes) (s : State) : Host.Outcome State Fault Refusal :=
  .next (s.succeed 0x01 (.bcc (xorBytes data)))

/-- ENC_NUM (R83). -/
def execEncNum (value width : Nat) (s : State) : Host.Outcome State Fault Refusal :=
  .next (s.answer 0x02 ((encNumField s.params.overflowPolicy value width).map .field))

/-- ENC_TEXT (R84). -/
def execEncText (text : Bytes) (width : Nat) (pad : Byte) (s : State) : Host.Outcome State Fault Refusal :=
  .next (s.succeed 0x03 (.field (encTextField text width pad)))

/-- DEC_ASCII (R85). -/
def execDecAscii (region : Bytes) (s : State) : Host.Outcome State Fault Refusal :=
  .next (s.succeed 0x04 (.text (clean region)))

/-- DEC_LOCAL (R86). -/
def execDecLocal (region : Bytes) (s : State) : Host.Outcome State Fault Refusal :=
  .next (s.succeed 0x05 (.localText (decLocalField s.params region)))

/-- DEC_NUM (R87). -/
def execDecNum (region : Bytes) (s : State) : Host.Outcome State Fault Refusal :=
  .next (s.succeed 0x06 (.num (decNumField region)))

/-- CLASSIFY (R88). -/
def execClassify (table : Table) (code : Byte) (s : State) : Host.Outcome State Fault Refusal :=
  .next (s.succeed 0x07 (.classified (classifyCode s.params table code)))

/-- ERR_LOOKUP's pseudocode (R89). -/
def errLookupOut (p : Params) (code : Bytes) : Except ResultCode Out :=
  if code.length ≠ 2 then .error .badOperand
  else match errTableMessage p code with
    | some m => .ok (.errMessage ⟨true, m⟩)
    | none => .ok (.errMessage ⟨false, []⟩)

/-- ERR_LOOKUP (R89). -/
def execErrLookup (code : Bytes) (s : State) : Host.Outcome State Fault Refusal :=
  .next (s.answer 0x08 (errLookupOut s.params code))

end Sys2Proof.Machine
end

