-- ==== Sys2Proof/Machine/Engine.lean ====
section
/-! DEFINITION. The shared procedures of the protocol engine (spec/43_protocol_engine.md R151, R152, R159, R161 to R163). -/

namespace Sys2Proof.Machine

/-- `writeFrame` (R151): writes the saved frame and waits for the drain. -/
def State.writeFrame (s : State) : State :=
  { s.txEmit s.txframe with phase := .txDrain, timer := 0 }

/-- `finishSend(code, resp)` (R151): one result record, and the send state returns to IDLE. -/
def State.finishSend (code : ResultCode) (resp : Option Response) (s : State) : State :=
  { s.result ⟨0x32, code, if code = .ok then some (.response resp) else none⟩ with
    phase := .idle, attempt := 0, expect := false, txframe := [], timer := 0 }

/-- `retry` (R152): the same bytes again, or ERR_MAX_RETRIES. -/
def State.retry (s : State) : State :=
  if s.attempt < s.params.maxAttempts then State.writeFrame { s with attempt := s.attempt + 1 }
  else s.finishSend .maxRetries none

/-- `handshake(b)` (R159), for `b` in {`P_ACK`, `P_NAK`}: dropped in every phase but ACK_WAIT. -/
def State.handshake (b : Byte) (s : State) : State :=
  if s.phase ≠ .ackWait then s
  else if b = s.params.ack then
    if s.expect then { s with phase := .rspWait, timer := 0 }
    else s.finishSend .ok none
  else s.retry

/-- `dispatch(f)` of one complete candidate (R162). -/
def State.dispatch (f : Bytes) (s : State) : State :=
  let h := parseFrameHdr s.params f
  if !h.isValid then s.txEmit [s.params.nak]
  else if h.jc = s.params.jcEventRsp then s.notify (.event f h)
  else if s.phase = .rspWait then (s.txEmit [s.params.ack]).finishSend .ok (some ⟨f, h⟩)
  else s.notify (.unexpectedPacket f h)

/-- `resync` (R163): drops the start sentinel the scan is stuck on. -/
def State.resync (s : State) : State :=
  { s with rxOverflow := true, rxbuf := slice s.rxbuf 1 s.rxbuf.length }

/-- The loop of `reassemble` (R161). Every pass returns or shortens `rxbuf`, so `|rxbuf| + 1` passes are enough. -/
def State.reassembleLoop : Nat → State → State
  | 0, s => s
  | fuel + 1, s =>
    match find s.rxbuf s.params.stx with
    | none => { s with rxbuf := [] }
    | some i =>
      let c := slice s.rxbuf i s.rxbuf.length
      let r := scanWindow s.params c
      if r.status ≠ .complete then
        if s.params.rxbufCap < c.length then State.reassembleLoop fuel (State.resync { s with rxbuf := c })
        else { s with rxbuf := c }
      else State.reassembleLoop fuel (State.dispatch (slice c 0 r.length) { s with rxbuf := slice c r.length c.length })

/-- `reassemble` (R161). -/
def State.reassemble (s : State) : State := State.reassembleLoop (s.rxbuf.length + 1) s

end Sys2Proof.Machine
end

