-- ==== Sys2Proof/Machine/EngineCmd.lean ====
section
/-! DEFINITION. The engine commands, opcodes 0x30 to 0x33 (spec/43_protocol_engine.md R153, R155, R156, R164). -/

namespace Sys2Proof.Machine

/-- CONNECT (R153). On acceptance the result is appended later, by OPEN_DONE or DISCONNECT. -/
def execConnect (address : Bytes) (baud : Option Nat) (s : State) : Host.Outcome State Fault Refusal :=
  if s.connected then .next (s.raiseError 0x30 .alreadyConnected)
  else if s.opening then .next (s.raiseError 0x30 .busy)
  else
    .next (State.request (.openChannel address (baud.getD s.params.defaultBaud) s.params.lineParams)
      { s with opening := true })

/-- DISCONNECT (R155). -/
def execDisconnect (s : State) : Host.Outcome State Fault Refusal :=
  if s.opening then
    .next (((State.raiseError 0x30 .disconnecting { s with opening := false }).request .close).succeed 0x31 .empty)
  else if !s.connected then .next (s.succeed 0x31 .empty)
  else
    let s1 := if s.phase ≠ .idle then s.finishSend .disconnecting none else s
    .next (((State.request .close { s1 with connected := false, rxbuf := [] }).notify .disconnected).succeed 0x31 .empty)

/-- SEND (R156). On acceptance the result is appended later, by `finishSend`. The frame bytes are not checked. -/
def execSend (frame : Bytes) (expectResponse : Bool) (s : State) : Host.Outcome State Fault Refusal :=
  if !s.connected then .next (s.raiseError 0x32 .notConnected)
  else if s.phase ≠ .idle then .next (s.raiseError 0x32 .busy)
  else .next (State.writeFrame { s with txframe := frame, expect := expectResponse, attempt := 1 })

/-- The value of a status register (spec/10_state.md R35); none for a number other than 0..5. -/
def readRegValue (n : Nat) (s : State) : Option Nat :=
  match n with
  | 0 => some (s.connected.toNat + 2 * s.opening.toNat)
  | 1 => some s.phase.code
  | 2 => some s.attempt
  | 3 => some s.timer
  | 4 => some s.rxbuf.length
  | 5 => some (s.expect.toNat + 2 * s.rxOverflow.toNat)
  | _ => none

/-- READ_REG (R164). -/
def execReadReg (n : Nat) (s : State) : Host.Outcome State Fault Refusal :=
  match readRegValue n s with
  | some v => .next (s.succeed 0x33 (.value v))
  | none => .next (s.raiseError 0x33 .badOperand)

end Sys2Proof.Machine
end

