-- ==== Sys2Proof/Machine/EnvEvent.lean ====
section
/-! DEFINITION. The environment events, opcodes 0x40 to 0x43 and 0x4F (spec/43_protocol_engine.md R154, R157, R158, R160;
spec/70_reset_and_hazards.md R215). They append no result record of their own (spec/30_encoding.md R57). -/

namespace Sys2Proof.Machine

/-- RX_CHUNK (R160). -/
def execRxChunk (chunk : Bytes) (s : State) : Host.Outcome State Fault Refusal :=
  if !s.connected then .next s
  else if chunk.length = 0 then .next s
  else if chunk.length = 1 ∧ (byteAt chunk 0 = s.params.ack ∨ byteAt chunk 0 = s.params.nak) then
    .next (s.handshake (byteAt chunk 0))
  else .next (State.reassemble { s with rxbuf := s.rxbuf ++ chunk })

/-- TX_DONE (R157). -/
def execTxDone (ok : Bool) (s : State) : Host.Outcome State Fault Refusal :=
  if s.phase ≠ .txDrain then .next s
  else if ok then .next { s with phase := .ackWait, timer := 0 }
  else .next (s.finishSend .writeFailed none)

/-- TICK (R158). -/
def execTick (s : State) : Host.Outcome State Fault Refusal :=
  match s.phase with
  | .ackWait =>
    let s1 : State := { s with timer := s.timer + 1 }
    if s1.params.ackTimeout ≤ s1.timer then .next s1.retry else .next s1
  | .rspWait =>
    let s1 : State := { s with timer := s.timer + 1 }
    if s1.params.rspTimeout ≤ s1.timer then .next (s1.finishSend .responseTimeout none) else .next s1
  | .idle => .next s
  | .txDrain => .next s

/-- OPEN_DONE (R154). -/
def execOpenDone (ok : Bool) (s : State) : Host.Outcome State Fault Refusal :=
  if !s.opening then .next s
  else if ok then
    .next ((State.notify .connected { s with opening := false, connected := true, rxbuf := [] }).succeed 0x30 .empty)
  else .next (State.raiseError 0x30 .openFailed { s with opening := false })

/-- RESET (R215): every engine field at its reset value; the four logs are not changed, and nothing is appended. -/
def execReset (s : State) : Host.Outcome State Fault Refusal :=
  .next { s with
    connected := false, opening := false, phase := .idle, attempt := 0, expect := false, txframe := [], timer := 0,
    rxbuf := [], rxOverflow := false }

end Sys2Proof.Machine
end

