-- ==== Sys2Proof/Machine/Frame.lean ====
section
/-! DEFINITION. The frame codec commands, opcodes 0x10 to 0x12 (spec/41_frame_codec.md). Each is pure (R80). -/

namespace Sys2Proof.Machine

/-- BUILD_FRAME (R100). -/
def execBuildFrame (tid ts : Bytes) (jc : Byte) (payload : Bytes) (s : State) : Host.Outcome State Fault Refusal :=
  .next (s.answer 0x10 ((buildFrameBytes s.params tid ts jc payload).map .frame))

/-- PARSE_FRAME (R101): an invalid frame is a successful command. -/
def execParseFrame (data : Bytes) (s : State) : Host.Outcome State Fault Refusal :=
  .next (s.succeed 0x11 (.parsed (parseFrameHdr s.params data)))

/-- FIND_PACKET (R105). -/
def execFindPacket (window : Bytes) (s : State) : Host.Outcome State Fault Refusal :=
  .next (s.succeed 0x12 (.scan (scanWindow s.params window)))

end Sys2Proof.Machine
end

