-- ==== Sys2Proof/Machine/Message.lean ====
section
/-! DEFINITION. The request builders and response decoders, opcodes 0x20 to 0x25 (spec/42_messages.md). Each is pure
(R80). -/

namespace Sys2Proof.Machine

/-! ### Request builders -/

/-- BUILD_APPROVAL_REQ's pseudocode (R120), payload layout R70. -/
def buildApprovalFrame (p : Params) (tid ts : Bytes) (transactionType : Byte)
    (amount tax serviceCharge installmentCount : Nat) (signaturePresent : Byte) : Except ResultCode Bytes :=
  if ts.length ≠ 14 then .error .badOperand
  else
    match encNumFields p.overflowPolicy [(amount, 10), (tax, 8), (serviceCharge, 8), (installmentCount, 2)] with
    | .error e => .error e
    | .ok nums => buildFrameBytes p tid ts p.jcApprovalReq ([transactionType] ++ nums ++ [signaturePresent])

/-- BUILD_APPROVAL_REQ (R120). -/
def execBuildApprovalReq (tid ts : Bytes) (transactionType : Byte)
    (amount tax serviceCharge installmentCount : Nat) (signaturePresent : Byte) (s : State) :
    Host.Outcome State Fault Refusal :=
  .next (s.answer 0x20 ((buildApprovalFrame s.params tid ts transactionType amount tax serviceCharge installmentCount
    signaturePresent).map .frame))

/-- BUILD_CANCEL_REQ's pseudocode (R121), payload layout R71. -/
def buildCancelFrame (p : Params) (tid ts : Bytes) (cancelType transactionType : Byte)
    (amount tax serviceCharge installmentCount : Nat) (signaturePresent : Byte)
    (approvalNumber originalDate originalTime : Bytes) (additionalInfo : Option Bytes) : Except ResultCode Bytes :=
  if ts.length ≠ 14 ∨ originalDate.length ≠ p.wOdate ∨ originalTime.length ≠ p.wOtime then .error .badOperand
  else
    let a := additionalInfo.getD []
    if 99 < a.length then .error .fieldTooLong
    else
      match encNumFields p.overflowPolicy [(amount, 10), (tax, 8), (serviceCharge, 8), (installmentCount, 2)] with
      | .error e => .error e
      | .ok nums =>
        match encNumField p.overflowPolicy a.length 2 with
        | .error e => .error e
        | .ok count =>
          buildFrameBytes p tid ts p.jcCancelReq
            ([cancelType] ++ [transactionType] ++ nums ++ [signaturePresent] ++
              encTextField approvalNumber p.wApprno 0x20 ++ originalDate ++ originalTime ++ count ++ a)

/-- BUILD_CANCEL_REQ (R121). -/
def execBuildCancelReq (tid ts : Bytes) (cancelType transactionType : Byte)
    (amount tax serviceCharge installmentCount : Nat) (signaturePresent : Byte)
    (approvalNumber originalDate originalTime : Bytes) (additionalInfo : Option Bytes) (s : State) :
    Host.Outcome State Fault Refusal :=
  .next (s.answer 0x21 ((buildCancelFrame s.params tid ts cancelType transactionType amount tax serviceCharge
    installmentCount signaturePresent approvalNumber originalDate originalTime additionalInfo).map .frame))

/-! ### Response decoders -/

/-- The reject code and message, given the decoded first field `m1` and the decoded text `s2` of the second (R126). -/
def rejectionOf (p : Params) (m1 : LocalText) (s2 : Bytes) : Option Bytes × RejectMessage :=
  if 3 ≤ s2.length ∧ byteAt s2 0 = 0x2D then
    match errTableMessage p (slice s2 1 3) with
    | some m => (some (slice s2 1 3), ⟨m, true, true⟩)
    | none =>
      let t := clean (slice s2 3 s2.length)
      (some (slice s2 1 3), ⟨t, krValid p t, false⟩)
  else (none, ⟨m1.text, m1.krOk, false⟩)

/-- The reject code and message read from the two 20-byte fields (R126). -/
def rejection (p : Params) (f14 f15 : Bytes) : Option Bytes × RejectMessage :=
  rejectionOf p (decLocalField p f14) (decLocalField p f15).text

/-- The thirteen wire fields before the two contextual ones, with nothing read from those (R124). -/
def approvalCommon (p : Params) (fs : List Bytes) (rejected : Bool) : ApprovalRsp :=
  { transactionType := classifyCode p .tt (byteAt (fieldAt fs 1) 0)
    transactionMedia := classifyCode p .media (byteAt (fieldAt fs 2) 0)
    cardNumber := clean (fieldAt fs 3)
    approvedAmount := decNumField (fieldAt fs 4)
    tax := decNumField (fieldAt fs 5)
    serviceCharge := decNumField (fieldAt fs 6)
    installmentCount := decNumField (fieldAt fs 7)
    approvalNumber := clean (fieldAt fs 8)
    salesDate := clean (fieldAt fs 9)
    salesTime := clean (fieldAt fs 10)
    transactionId := clean (fieldAt fs 11)
    merchantId := clean (fieldAt fs 12)
    terminalNumber := clean (fieldAt fs 13)
    issuerCode := []
    issuerName := decLocalField p []
    acquirerCode := []
    acquirerName := decLocalField p []
    isRejected := rejected
    rejectCode := none
    rejectMessage := none }

/-- R125: on approval the contextual fields hold issuer and acquirer code and name pairs. -/
def approvalApproved (p : Params) (fs : List Bytes) : ApprovalRsp :=
  { approvalCommon p fs false with
    issuerCode := clean (slice (fieldAt fs 14) 0 p.issuerCodeW)
    issuerName := decLocalField p (slice (fieldAt fs 14) p.issuerCodeW 20)
    acquirerCode := clean (slice (fieldAt fs 15) 0 p.acquirerCodeW)
    acquirerName := decLocalField p (slice (fieldAt fs 15) p.acquirerCodeW 20) }

/-- R126: on rejection they hold the reject code and message; issuer and acquirer are empty (log entry 9). -/
def approvalRejected (p : Params) (fs : List Bytes) : ApprovalRsp :=
  { approvalCommon p fs true with
    rejectCode := (rejection p (fieldAt fs 14) (fieldAt fs 15)).1
    rejectMessage := some (rejection p (fieldAt fs 14) (fieldAt fs 15)).2 }

/-- DEC_APPROVAL_RSP's pseudocode (R124). -/
def decApprovalOut (p : Params) (payload : Bytes) : Except ResultCode Out :=
  match fields payload (approvalWidths p.approvalLayout) with
  | none => .error .decodeShort
  | some fs =>
    if isRejected p (byteAt (fieldAt fs 1) 0) then .ok (.approvalRsp (approvalRejected p fs))
    else .ok (.approvalRsp (approvalApproved p fs))

/-- DEC_APPROVAL_RSP (R124): a rejected transaction is no error (R130), and no job code is checked (R131). -/
def execDecApprovalRsp (payload : Bytes) (s : State) : Host.Outcome State Fault Refusal :=
  .next (s.answer 0x22 (decApprovalOut s.params payload))

/-- DEC_CARDINQ_RSP's pseudocode (R127). -/
def decCardInqOut (p : Params) (payload : Bytes) : Except ResultCode Out :=
  match fields payload (cardInqWidths p.cardInqLayout) with
  | none => .error .decodeShort
  | some fs => .ok (.cardInqRsp
      { transactionMedia := classifyCode p .media (byteAt (fieldAt fs 1) 0)
        cardType := clean (fieldAt fs 2)
        cardNumber := clean (fieldAt fs 3)
        lastTransactionDateTime := clean (fieldAt fs 4)
        lastTransactionAmount := decNumField (fieldAt fs 5)
        cardBalance := decNumField (fieldAt fs 6)
        transactionStatus := clean (fieldAt fs 7) })

/-- DEC_CARDINQ_RSP (R127). -/
def execDecCardinqRsp (payload : Bytes) (s : State) : Host.Outcome State Fault Refusal :=
  .next (s.answer 0x23 (decCardInqOut s.params payload))

/-- DEC_DEVCHK_RSP's pseudocode (R128), layout R74. -/
def decDevchkOut (p : Params) (payload : Bytes) : Except ResultCode Out :=
  match fields payload [1, 1, 1, 1] with
  | none => .error .decodeShort
  | some fs => .ok (.devchkRsp
      { status0 := classifyCode p .devStatus (byteAt (fieldAt fs 1) 0)
        status1 := classifyCode p .devStatus (byteAt (fieldAt fs 2) 0)
        status2 := classifyCode p .devStatus (byteAt (fieldAt fs 3) 0)
        status3 := classifyCode p .devStatus (byteAt (fieldAt fs 4) 0) })

/-- DEC_DEVCHK_RSP (R128). -/
def execDecDevchkRsp (payload : Bytes) (s : State) : Host.Outcome State Fault Refusal :=
  .next (s.answer 0x24 (decDevchkOut s.params payload))

/-- DEC_EVENT_RSP's pseudocode (R129), layout R75. -/
def decEventOut (p : Params) (payload : Bytes) : Except ResultCode Out :=
  match fields payload [1] with
  | none => .error .decodeShort
  | some fs => .ok (.eventRsp (classifyCode p .event (byteAt (fieldAt fs 1) 0)))

/-- DEC_EVENT_RSP (R129). -/
def execDecEventRsp (payload : Bytes) (s : State) : Host.Outcome State Fault Refusal :=
  .next (s.answer 0x25 (decEventOut s.params payload))

end Sys2Proof.Machine
end

