-- ==== Sys2Proof/Machine/Dispatch.lean ====
section
/-! DEFINITION. One arm per event of the opcode map (spec/30_encoding.md R77), each one direct call of its meaning. -/

namespace Sys2Proof.Machine

def exec (i : Instr) (s : State) : Host.Outcome State Fault Refusal :=
  match i with
  | .checksum data => Sys2Proof.Machine.execChecksum data s
  | .encNum value width => Sys2Proof.Machine.execEncNum value width s
  | .encText text width pad => Sys2Proof.Machine.execEncText text width pad s
  | .decAscii region => Sys2Proof.Machine.execDecAscii region s
  | .decLocal region => Sys2Proof.Machine.execDecLocal region s
  | .decNum region => Sys2Proof.Machine.execDecNum region s
  | .classify table code => Sys2Proof.Machine.execClassify table code s
  | .errLookup code => Sys2Proof.Machine.execErrLookup code s
  | .buildFrame tid ts jc payload => Sys2Proof.Machine.execBuildFrame tid ts jc payload s
  | .parseFrame data => Sys2Proof.Machine.execParseFrame data s
  | .findPacket window => Sys2Proof.Machine.execFindPacket window s
  | .buildApprovalReq tid ts transactionType amount tax serviceCharge installmentCount signaturePresent => Sys2Proof.Machine.execBuildApprovalReq tid ts transactionType amount tax serviceCharge installmentCount signaturePresent s
  | .buildCancelReq tid ts cancelType transactionType amount tax serviceCharge installmentCount signaturePresent approvalNumber originalDate originalTime additionalInfo => Sys2Proof.Machine.execBuildCancelReq tid ts cancelType transactionType amount tax serviceCharge installmentCount signaturePresent approvalNumber originalDate originalTime additionalInfo s
  | .decApprovalRsp payload => Sys2Proof.Machine.execDecApprovalRsp payload s
  | .decCardinqRsp payload => Sys2Proof.Machine.execDecCardinqRsp payload s
  | .decDevchkRsp payload => Sys2Proof.Machine.execDecDevchkRsp payload s
  | .decEventRsp payload => Sys2Proof.Machine.execDecEventRsp payload s
  | .connect address baud => Sys2Proof.Machine.execConnect address baud s
  | .disconnect => Sys2Proof.Machine.execDisconnect s
  | .send frame expectResponse => Sys2Proof.Machine.execSend frame expectResponse s
  | .readReg n => Sys2Proof.Machine.execReadReg n s
  | .rxChunk chunk => Sys2Proof.Machine.execRxChunk chunk s
  | .txDone ok => Sys2Proof.Machine.execTxDone ok s
  | .tick => Sys2Proof.Machine.execTick s
  | .openDone ok => Sys2Proof.Machine.execOpenDone ok s
  | .reset => Sys2Proof.Machine.execReset s

end Sys2Proof.Machine
end

