-- ==== Sys2Proof/Machine/Step.lean ====
section
/-! DEFINITION. One step of the block: it takes the next event record of its input and processes it whole
(spec/10_state.md R20). With no event delivered it waits (spec/70_reset_and_hazards.md R216). -/

namespace Sys2Proof.Machine

/-- The step. An illegal opcode is admitted and rejected by its result record (R78); a record whose operands are outside
their types gets no step (R19). -/
def step (s : State) : Host.Outcome State Fault Refusal :=
  match s.input with
  | [] => .next s
  | r :: rest =>
    match decode r with
    | .ok i => exec i (s.takeRecord rest)
    | .error (.illegalOpcode op) => .next ((s.takeRecord rest).takeIllegalOpcode op)
    | .error (.operandOutsideType op) => .refused (.operandOutsideType op)

/-- `s` with the event record of a table word delivered as the next event (log entry 4). -/
def State.withFetchWord (s : State) (nbits w : Nat) : State := s.deliver (tableRecord nbits w)

end Sys2Proof.Machine
end

