-- ==== Sys2Proof/Safety.lean ====
section
/-! DEFINITION. The terms the claims use: the invariants of spec/10_state.md R33, the agreement of the logs with the
merged trace, what "append-only" means, how many results are owed, and how many ticks a send can still take. Nothing here
is called by the machine; the formulas are written independently of it. -/

namespace Sys2Proof.Machine

/-! ### Next states in terms of fields -/

/-- `s` with one more result record, and nothing else changed but the merged trace (R57). -/
def State.withResult (s : State) (op : Byte) (code : ResultCode) (out : Option Out) : State :=
  { s with results := s.results ++ [⟨op, code, out⟩], trace := s.trace ++ [.result ⟨op, code, out⟩] }

/-- The send state back at its IDLE values (R151). -/
def State.sendIdle (s : State) : State :=
  { s with phase := .idle, attempt := 0, expect := false, txframe := [], timer := 0 }

/-- The saved frame written once more, its drain awaited, as attempt number `n` (R151, R152). -/
def State.frameWritten (s : State) (n : Nat) : State :=
  { s with
    txlog := s.txlog ++ [s.txframe], trace := s.trace ++ [.tx s.txframe], phase := .txDrain, timer := 0, attempt := n }

/-- What a NACK or an ACK timeout leads to (R152): the next attempt, or the end of the send with ERR_MAX_RETRIES. -/
def State.retried (s : State) : State :=
  if s.attempt < s.params.maxAttempts then s.frameWritten (s.attempt + 1)
  else (s.withResult 0x32 .maxRetries none).sendIdle

/-- From `s` to `t` a response wait ended with success (R162, R169): a valid frame that is no event frame, found in the
bytes `received`, is reported with its header in the one result appended. -/
def State.AnsweredFrom (received : Bytes) (s t : State) : Prop :=
  s.phase = .rspWait ∧ t.phase = .idle ∧ ∃ f : Bytes, f <:+: received ∧
    (parseFrameHdr s.params f).isValid = true ∧ (parseFrameHdr s.params f).jc ≠ s.params.jcEventRsp ∧
    t.results = s.results ++ [⟨0x32, .ok, some (.response (some ⟨f, parseFrameHdr s.params f⟩))⟩]

/-- Every engine field at its reset value (R21, R39). -/
structure State.EngineReset (s : State) : Prop where
  connected : s.connected = false
  opening : s.opening = false
  phase : s.phase = .idle
  attempt : s.attempt = 0
  expect : s.expect = false
  txframe : s.txframe = []
  timer : s.timer = 0
  rxbuf : s.rxbuf = []
  rxOverflow : s.rxOverflow = false

/-! ### Formulas of the field codec -/

/-- The `w` low-order decimal digits of `v`, as ASCII, most significant first (R69, R83). -/
def decimalField (v w : Nat) : Bytes :=
  (List.range w).map (fun i => BitVec.ofNat 8 (0x30 + v / 10 ^ (w - 1 - i) % 10))

/-- The sum of R87: `(t[i] - 0x30) * 10^(|t|-1-i)` over all `i < |t|`. -/
def digitsSum (t : Bytes) : Nat :=
  ((List.range t.length).map (fun i => ((t.getD i 0).toNat - 0x30) * 10 ^ (t.length - 1 - i))).sum

/-- Field `j` (from 0) of a payload laid out with contiguous fields of the given widths: it begins where the fields before
it end (R72, R123). -/
def fieldSlice (payload : Bytes) (widths : List Nat) (j : Nat) : Bytes :=
  (payload.drop (widths.take j).sum).take (widths.getD j 0)

/-- A byte string with bit `b` of byte `k` flipped. -/
def flipBit (s : Bytes) (k b : Nat) : Bytes := s.set k (s.getD k 0 ^^^ BitVec.ofNat 8 (2 ^ b))

/-! ### Invariants (R33) -/

/-- The invariants (I1) to (I9) of R33, and the bound of R25. -/
structure State.Inv (s : State) : Prop where
  /-- (I1) -/
  notOpeningAndConnected : ¬(s.opening = true ∧ s.connected = true)
  /-- (I2) -/
  inFlightConnected : s.phase ≠ .idle → s.connected = true
  /-- (I3) -/
  idleIffNoAttempt : s.phase = .idle ↔ s.attempt = 0
  /-- R25 -/
  attemptBound : s.attempt ≤ s.params.maxAttempts
  /-- (I4) -/
  idleExpect : s.phase = .idle → s.expect = false
  /-- (I4) -/
  idleTxframe : s.phase = .idle → s.txframe = []
  /-- (I5) -/
  noWaitNoTimer : s.phase = .idle ∨ s.phase = .txDrain → s.timer = 0
  /-- (I6) -/
  ackTimerBound : s.phase = .ackWait → s.timer < s.params.ackTimeout
  /-- (I7) -/
  rspTimerBound : s.phase = .rspWait → s.timer < s.params.rspTimeout
  /-- (I8) -/
  rxbufBound : s.rxbuf.length ≤ s.params.rxbufCap
  /-- (I8) -/
  rxbufStart : s.rxbuf = [] ∨ s.rxbuf.head? = some s.params.stx
  /-- (I9) -/
  disconnectedEmpty : s.connected = false → s.rxbuf = []

/-- The channel writes in a trace, in order. -/
def traceTx : List Output → List Bytes
  | [] => []
  | .tx t :: l => t :: traceTx l
  | _ :: l => traceTx l

/-- The channel requests in a trace, in order. -/
def traceChan : List Output → List ChanReq
  | [] => []
  | .chan r :: l => r :: traceChan l
  | _ :: l => traceChan l

/-- The notifications in a trace, in order. -/
def traceNotes : List Output → List Notification
  | [] => []
  | .note n :: l => n :: traceNotes l
  | _ :: l => traceNotes l

/-- The result records in a trace, in order. -/
def traceResults : List Output → List ResultRec
  | [] => []
  | .result r :: l => r :: traceResults l
  | _ :: l => traceResults l

/-- Each log holds exactly the merged trace's entries of its kind, in the trace's order (spec/20_memory.md R50). -/
structure State.LogsMatchTrace (s : State) : Prop where
  tx : s.txlog = traceTx s.trace
  chan : s.chanreq = traceChan s.trace
  notes : s.notes = traceNotes s.trace
  results : s.results = traceResults s.trace

/-- Every log of `t` is that of `s` with entries appended (R31). -/
structure State.Extends (s t : State) : Prop where
  tx : s.txlog <+: t.txlog
  chan : s.chanreq <+: t.chanreq
  notes : s.notes <+: t.notes
  results : s.results <+: t.results
  trace : s.trace <+: t.trace

/-! ### Results owed (R166) -/

/-- How many result records of opcode `op` the log holds. -/
def State.resultCount (op : Byte) (s : State) : Nat := s.results.countP (fun r => r.op == op)

/-- One result is owed while a send is in flight. -/
def State.sendOwed (s : State) : Nat :=
  match s.phase with
  | .idle => 0
  | .txDrain => 1
  | .ackWait => 1
  | .rspWait => 1

/-- One result is owed while a CONNECT is opening. -/
def State.connectOwed (s : State) : Nat := s.opening.toNat

/-! ### Ticks a send can still take (R167) -/

/-- An upper bound of the ticks that count in the waits of the send in flight, and 0 in IDLE. -/
def State.ticksLeft (s : State) : Nat :=
  match s.phase with
  | .idle => 0
  | .txDrain => (s.params.maxAttempts + 1 - s.attempt) * s.params.ackTimeout + s.params.rspTimeout
  | .ackWait =>
    (s.params.maxAttempts - s.attempt) * s.params.ackTimeout + (s.params.ackTimeout - s.timer) + s.params.rspTimeout
  | .rspWait => s.params.rspTimeout - s.timer

/-! ### Families of events -/

/-- An operand that is of type `t` (R56). -/
def Operand.hasType : OperandType → Operand → Bool
  | .bytes, .bytes _ => true
  | .bytesN, .bytes _ => true
  | .byte, .byte _ => true
  | .nat, .nat _ => true
  | .width, .nat n => decide (1 ≤ n ∧ n ≤ 255)
  | .bool, .bool _ => true
  | .table, .table _ => true
  | .optBytes, .absent => true
  | .optBytes, .bytes _ => true
  | .optNat, .absent => true
  | .optNat, .nat _ => true
  | _, _ => false

/-- Operands that are of the listed types, one for one. -/
def conforms : List OperandType → List Operand → Bool
  | [], [] => true
  | t :: ts, x :: xs => Operand.hasType t x && conforms ts xs
  | _, _ => false

/-- The codec commands, opcodes 0x01 to 0x25 (R21: "Codec commands read no state"). -/
def isCodec (i : Instr) : Bool :=
  match i with
  | .checksum _ | .encNum _ _ | .encText _ _ _ | .decAscii _ | .decLocal _ | .decNum _ | .classify _ _ | .errLookup _ => true
  | .buildFrame _ _ _ _ | .parseFrame _ | .findPacket _ => true
  | .buildApprovalReq _ _ _ _ _ _ _ _ | .buildCancelReq _ _ _ _ _ _ _ _ _ _ _ _ _ => true
  | .decApprovalRsp _ | .decCardinqRsp _ | .decDevchkRsp _ | .decEventRsp _ => true
  | .connect _ _ | .disconnect | .send _ _ | .readReg _ => false
  | .rxChunk _ | .txDone _ | .tick | .openDone _ | .reset => false

end Sys2Proof.Machine
end

