-- ==== Sys2Proof/Certificates/Slice0/Obligations.lean ====
section
/-! DEFINITION. The statements for the provers. Each docstring names the rules of spec/ it formalises. A statement about
`exec` is about every state, so about every well-formed configuration (the state carries it). Next states are written out
field by field, or through the field-by-field terms of Safety.lean (`withResult`, `sendIdle`, `frameWritten`, `retried`),
so each equation is also the event's frame. -/

open Sys2Proof Sys2Proof.Machine

/-! ### The interface: records, decoding, stepping -/

/-- R20, R55: the step runs the event that the next record carries, on the state with that record taken. -/
def Obligations.StepRunsTheDecodedEvent : Prop :=
  ∀ (s : State) (r : EventRecord) (rest : List EventRecord) (i : Instr),
    s.input = r :: rest → decode r = .ok i → step s = exec i { s with input := rest }

/-- R216: after reset the block waits for the next event; with none delivered a step changes nothing (log entry 5). -/
def Obligations.NoEventNoChange : Prop :=
  ∀ s : State, s.input = [] → step s = .next s

/-- R78: every opcode not in the map is admitted, changes no engine state and appends one ERR_ILLEGAL_OPCODE result,
whose code is 21 (R190). -/
def Obligations.IllegalOpcodeIsReported : Prop :=
  ResultCode.illegalOpcode.number = 21 ∧
  ∀ (s : State) (op : Byte) (rest : List EventRecord),
    s.input = ⟨op, []⟩ :: rest → (∀ o : Opcode, o.byte ≠ op) →
      step s = .next (State.withResult { s with input := rest } op .illegalOpcode none)

/-- R56, R77: a record is an event exactly when its opcode is listed and its operands are of the types of its row. -/
def Obligations.AdmittedIffTyped : Prop :=
  ∀ r : EventRecord,
    (∃ i, decode r = .ok i) ↔ ∃ o : Opcode, o.byte = r.opcode ∧ conforms o.signature r.operands = true

/-- R19, R56, R194: no step faults, and a step is refused only for a record of a listed opcode whose operands are outside
their types. Two of the cases that answer a next state are the model's choice: a record with an illegal opcode (R78) that
carries operands (log entry 3), and a state with no event delivered (R216; log entry 5). -/
def Obligations.OnlyIllTypedRecordsAreRefused : Prop :=
  ∀ s : State,
    (∃ t, step s = .next t) ∨
    ∃ (r : EventRecord) (rest : List EventRecord) (o : Opcode),
      s.input = r :: rest ∧ o.byte = r.opcode ∧ conforms o.signature r.operands = false ∧
        step s = .refused (.operandOutsideType r.opcode)

/-- R55, section 4.7 of spec/95_test_vectors.md: the serialised events written out there decode to the events they stand
for. -/
def Obligations.WrittenOutRecordsDecode : Prop :=
  decodeWire [0x43, 0x01] = .ok (.openDone true, []) ∧
  decodeWire [0x41, 0x01] = .ok (.txDone true, []) ∧
  decodeWire [0x42] = .ok (.tick, []) ∧
  decodeWire [0x40, 0x01, 0x00, 0x00, 0x00, 0x06] = .ok (.rxChunk [0x06], []) ∧
  decodeWire [0x33, 0x04, 0x00, 0x00, 0x00] = .ok (.readReg 4, []) ∧
  decodeWire [0x32, 0x02, 0x00, 0x00, 0x00, 0x41, 0x42, 0x01] = .ok (.send [0x41, 0x42] true, [])

/-- Decode and encode agree: every event that 32-bit lengths and naturals can carry comes back from its serialisation,
with whatever follows it left over (R55). -/
def Obligations.DecodeOfEncodeIsTheEvent : Prop :=
  ∀ (i : Instr) (rest : Bytes),
    i.wellFormed = true → i.fitsWire = true → decodeWire (encodeWire i ++ rest) = .ok (i, rest)

/-- The serialisation is one-to-one: bytes that decode to an event begin with that event's encoding, and the event is
well-formed and fits (R55, R56). -/
def Obligations.EncodeOfDecodeIsTheBytes : Prop :=
  ∀ (bs : Bytes) (i : Instr) (rest : Bytes),
    decodeWire bs = .ok (i, rest) → bs = encodeWire i ++ rest ∧ i.wellFormed = true ∧ i.fitsWire = true

/-! ### Field codec -/

/-- R82: CHECKSUM answers the XOR of its bytes, and nothing else changes. -/
def Obligations.ChecksumIsTheXor : Prop :=
  ∀ (data : Bytes) (s : State),
    exec (.checksum data) s = .next (s.withResult 0x01 .ok (some (.bcc (data.foldl (· ^^^ ·) 0))))

/-- R83, R69: ENC_NUM answers the low-order digits, right-aligned and zero-padded, where the value fits or the policy is
TRUNCATE_HIGH; else it is rejected with ERR_VALUE_TOO_LARGE. -/
def Obligations.EncNumIsTheDecimalField : Prop :=
  ∀ (value width : Nat) (s : State), 1 ≤ width → width ≤ 255 →
    (value < 10 ^ width ∨ s.params.overflowPolicy = .truncateHigh →
      exec (.encNum value width) s = .next (s.withResult 0x02 .ok (some (.field (decimalField value width))))) ∧
    (10 ^ width ≤ value → s.params.overflowPolicy = .reject →
      exec (.encNum value width) s = .next (s.withResult 0x02 .valueTooLarge none))

/-- R84: ENC_TEXT answers exactly `width` bytes: the text, truncated or padded on the right. -/
def Obligations.EncTextFitsOrTruncates : Prop :=
  ∀ (text : Bytes) (width : Nat) (pad : Byte) (s : State),
    exec (.encText text width pad) s =
      .next (s.withResult 0x03 .ok (some (.field ((text ++ List.replicate width pad).take width))))

/-- R81, R85: DEC_ASCII removes every 0x00, then the whitespace at both ends and no more. -/
def Obligations.DecAsciiStripsAndTrims : Prop :=
  ∀ (region : Bytes) (s : State),
    ∃ before text after : Bytes,
      exec (.decAscii region) s = .next (s.withResult 0x04 .ok (some (.text text))) ∧
      region.filter (· != 0) = before ++ text ++ after ∧
      (∀ b ∈ before, isWS b = true) ∧ (∀ b ∈ after, isWS b = true) ∧
      (∀ b, text.head? = some b → isWS b = false) ∧ (∀ b, text.getLast? = some b → isWS b = false)

/-- R86: DEC_LOCAL answers the bytes that DEC_ASCII would, with the flag `kr_ok`, never an error; the empty text is
valid. -/
def Obligations.DecLocalNeverFails : Prop :=
  ∀ (region : Bytes) (s : State),
    exec (.decLocal region) s =
      .next (s.withResult 0x05 .ok (some (.localText ⟨clean region, krValid s.params (clean region)⟩))) ∧
    exec (.decAscii region) s = .next (s.withResult 0x04 .ok (some (.text (clean region)))) ∧
    krValid s.params [] = true

/-- R87: DEC_NUM answers the positional sum of a non-empty digit string, and 0 with `num_ok = false` for any other. -/
def Obligations.DecNumIsThePositionalSum : Prop :=
  ∀ (region : Bytes) (s : State),
    (clean region ≠ [] → (∀ b ∈ clean region, 0x30 ≤ b.toNat ∧ b.toNat ≤ 0x39) →
      exec (.decNum region) s = .next (s.withResult 0x06 .ok (some (.num ⟨digitsSum (clean region), true⟩)))) ∧
    (clean region = [] ∨ (∃ b ∈ clean region, b.toNat < 0x30 ∨ 0x39 < b.toNat) →
      exec (.decNum region) s = .next (s.withResult 0x06 .ok (some (.num ⟨0, false⟩))))

/-- R88: CLASSIFY answers the variant its table gives the byte, UNRECOGNIZED for a byte in no row, and always the byte. -/
def Obligations.ClassifyIsTheTableEntry : Prop :=
  ∀ (table : Table) (code : Byte) (s : State),
    ∃ v : Variant,
      exec (.classify table code) s = .next (s.withResult 0x07 .ok (some (.classified ⟨v, code⟩))) ∧
      (table = .job →
        (v = .job .approvalReq ↔ code = s.params.jcApprovalReq) ∧ (v = .job .cancelReq ↔ code = s.params.jcCancelReq) ∧
        (v = .job .devchkRsp ↔ code = s.params.jcDevchkRsp) ∧ (v = .job .eventRsp ↔ code = s.params.jcEventRsp) ∧
        (v = .job .approvalRsp ↔ code = s.params.jcApprovalRsp) ∧ (v = .job .cardinqRsp ↔ code = s.params.jcCardinqRsp) ∧
        (v = .unrecognized ↔ code ∉ s.params.jobCodes)) ∧
      (table = .tt →
        (v = .tt .approved ↔ code = s.params.ttApproved) ∧ (v = .tt .rejected ↔ code = s.params.ttRejected) ∧
        (v = .unrecognized ↔ code ≠ s.params.ttApproved ∧ code ≠ s.params.ttRejected)) ∧
      (table = .media →
        (∀ m, v = .media m ↔ s.params.mediaTable.lookup code = some m) ∧
        (v = .unrecognized ↔ s.params.mediaTable.lookup code = none)) ∧
      (table = .devStatus →
        (∀ d, v = .devStatus d ↔ s.params.devStatusTable.lookup code = some d) ∧
        (v = .unrecognized ↔ s.params.devStatusTable.lookup code = none)) ∧
      (table = .event →
        (∀ e, v = .event e ↔ s.params.eventTable.lookup code = some e) ∧
        (v = .unrecognized ↔ s.params.eventTable.lookup code = none))

/-- R89: ERR_LOOKUP rejects a code that is not 2 bytes, and answers the table's message or `found = false`. -/
def Obligations.ErrLookupIsTheTableMessage : Prop :=
  ∀ (s : State),
    (∀ code : Bytes, code.length ≠ 2 → exec (.errLookup code) s = .next (s.withResult 0x08 .badOperand none)) ∧
    (∀ (a b : Byte) (m : Bytes), s.params.errTable.lookup (a, b) = some m →
      exec (.errLookup [a, b]) s = .next (s.withResult 0x08 .ok (some (.errMessage ⟨true, m⟩)))) ∧
    (∀ a b : Byte, s.params.errTable.lookup (a, b) = none →
      exec (.errLookup [a, b]) s = .next (s.withResult 0x08 .ok (some (.errMessage ⟨false, []⟩))))

/-- R91: the encode-decode law of decimal fields: under REJECT the value itself, under TRUNCATE_HIGH the value modulo
`10^width`. -/
def Obligations.DecNumOfEncNum : Prop :=
  ∀ (policy : OverflowPolicy) (value width : Nat) (f : Bytes),
    1 ≤ width → encNumField policy value width = .ok f →
      f.length = width ∧ decNumField f = ⟨value % 10 ^ width, true⟩ ∧
      (policy = .reject → decNumField f = ⟨value, true⟩)

/-- R92: the XOR laws: of a concatenation, of a string followed by its own XOR, and of one flipped bit. -/
def Obligations.XorLaws : Prop :=
  (∀ s t : Bytes, xorBytes (s ++ t) = xorBytes s ^^^ xorBytes t) ∧
  (∀ s : Bytes, xorBytes (s ++ [xorBytes s]) = 0) ∧
  (∀ (s : Bytes) (k b : Nat), k < s.length → b < 8 →
    xorBytes (flipBit s k b) = xorBytes s ^^^ BitVec.ofNat 8 (2 ^ b))

/-- R93: the text round trip, and what truncation leaves. -/
def Obligations.CleanOfEncText : Prop :=
  (∀ (t : Bytes) (w : Nat) (pad : Byte), (encTextField t w pad).length = w) ∧
  (∀ t : Bytes, t.length ≤ 16 → 0 ∉ t → (∀ b, t.head? = some b → isWS b = false) →
    (∀ b, t.getLast? = some b → isWS b = false) → clean (encTextField t 16 0) = t) ∧
  (∀ t : Bytes, 16 < t.length → clean (encTextField t 16 0) = clean (t.take 16))

/-- R14: `MemWrite` puts its bytes where `MemRead` finds them, and leaves the length and every other byte alone.
A range that begins after the bytes written may end outside the string, where `memRead` is the model's choice (log entry 8). -/
def Obligations.MemReadOfMemWrite : Prop :=
  ∀ (s v : Bytes) (off : Nat), off + v.length ≤ s.length →
    (memWrite s off v).length = s.length ∧
    memRead (memWrite s off v) off v.length = v ∧
    (∀ a n : Nat, a + n ≤ off ∨ off + v.length ≤ a → memRead (memWrite s off v) a n = memRead s a n)

/-! ### Frame codec -/

/-- R100, R60 to R63, R66: BUILD_FRAME's checks in order, and every byte of the frame it answers. -/
def Obligations.BuildFrameLaysOutTheFrame : Prop :=
  ∀ (tid ts : Bytes) (jc : Byte) (payload : Bytes) (s : State),
    (ts.length ≠ 14 → exec (.buildFrame tid ts jc payload) s = .next (s.withResult 0x10 .badOperand none)) ∧
    (ts.length = 14 → 65535 < payload.length →
      exec (.buildFrame tid ts jc payload) s = .next (s.withResult 0x10 .payloadTooLong none)) ∧
    (ts.length = 14 → payload.length ≤ 65535 →
      ∃ f : Bytes,
        exec (.buildFrame tid ts jc payload) s = .next (s.withResult 0x10 .ok (some (.frame f))) ∧
        f.length = 37 + payload.length ∧
        f.getD 0 0 = s.params.stx ∧
        (f.drop 1).take 16 = (tid ++ List.replicate 16 0).take 16 ∧
        (f.drop 17).take 14 = ts ∧
        f.getD 31 0 = jc ∧
        f.getD 32 0 = 0 ∧
        (f.getD 33 0).toNat = payload.length % 256 ∧
        (f.getD 34 0).toNat = payload.length / 256 ∧
        (f.drop 35).take payload.length = payload ∧
        f.getD (35 + payload.length) 0 = s.params.etx ∧
        f.getD (36 + payload.length) 0 = (f.take (36 + payload.length)).foldl (· ^^^ ·) 0)

/-- R101, R102, R103: PARSE_FRAME reports the first check that fails, with every other output field empty or 0, and the
header fields of a valid frame. It never errors. -/
def Obligations.ParseFrameChecksInOrder : Prop :=
  ∀ (data : Bytes) (s : State),
    ∃ h : FrameHdr,
      exec (.parseFrame data) s = .next (s.withResult 0x11 .ok (some (.parsed h))) ∧
      (data.length < 37 → h = ⟨false, .tooShort, [], [], [], 0, 0, 0, []⟩) ∧
      (37 ≤ data.length → data.getD 0 0 ≠ s.params.stx → h = ⟨false, .badStx, [], [], [], 0, 0, 0, []⟩) ∧
      (37 ≤ data.length → data.getD 0 0 = s.params.stx →
        ∀ l : Nat, l = (data.getD 33 0).toNat + 256 * (data.getD 34 0).toNat →
          (data.length ≠ 37 + l → h = ⟨false, .lenMismatch, [], [], [], 0, 0, 0, []⟩) ∧
          (data.length = 37 + l → data.getD (35 + l) 0 ≠ s.params.etx →
            h = ⟨false, .badEtx, [], [], [], 0, 0, 0, []⟩) ∧
          (data.length = 37 + l → data.getD (35 + l) 0 = s.params.etx →
            data.getD (36 + l) 0 ≠ (data.take (36 + l)).foldl (· ^^^ ·) 0 →
            h = ⟨false, .badBcc, [], [], [], 0, 0, 0, []⟩) ∧
          (data.length = 37 + l → data.getD (35 + l) 0 = s.params.etx →
            data.getD (36 + l) 0 = (data.take (36 + l)).foldl (· ^^^ ·) 0 →
            h = ⟨true, .valid, (data.drop 1).take 16, clean ((data.drop 1).take 16), (data.drop 17).take 14,
              data.getD 31 0, data.getD 32 0, l, (data.drop 35).take l⟩))

/-- R104: a byte string of at least 37 bytes that starts with `P_STX` is valid exactly under the source's three
conditions. -/
def Obligations.FrameValidIffThreeConditions : Prop :=
  ∀ (f : Bytes) (p : Params), 37 ≤ f.length → f.getD 0 0 = p.stx →
    ((parseFrameHdr p f).isValid = true ↔
      f.length = 37 + rd16 f 33 ∧ f.getD (35 + rd16 f 33) 0 = p.etx ∧
        f.getD (f.length - 1) 0 = xorBytes (f.take (f.length - 1)))

/-- R105: FIND_PACKET examines the candidate at the first start sentinel and no other. -/
def Obligations.FindPacketScansTheFirstCandidate : Prop :=
  ∀ (s : State),
    (∀ w : Bytes, s.params.stx ∉ w →
      exec (.findPacket w) s = .next (s.withResult 0x12 .ok (some (.scan ⟨.noFrame, 0, 0⟩)))) ∧
    (∀ g c : Bytes, s.params.stx ∉ g → c.head? = some s.params.stx →
      (c.length < 35 →
        exec (.findPacket (g ++ c)) s = .next (s.withResult 0x12 .ok (some (.scan ⟨.incomplete, g.length, 0⟩)))) ∧
      (∀ l : Nat, 35 ≤ c.length → l = (c.getD 33 0).toNat + 256 * (c.getD 34 0).toNat →
        (37 + l ≤ c.length → c.getD (35 + l) 0 = s.params.etx →
          exec (.findPacket (g ++ c)) s = .next (s.withResult 0x12 .ok (some (.scan ⟨.complete, g.length, 37 + l⟩)))) ∧
        (c.length < 37 + l ∨ c.getD (35 + l) 0 ≠ s.params.etx →
          exec (.findPacket (g ++ c)) s = .next (s.withResult 0x12 .ok (some (.scan ⟨.incomplete, g.length, 0⟩))))))

/-- R106: what BUILD_FRAME builds, PARSE_FRAME reads back, under every configuration. -/
def Obligations.ParseOfBuild : Prop :=
  ∀ (p : Params) (tid ts : Bytes) (jc : Byte) (payload f : Bytes),
    buildFrameBytes p tid ts jc payload = .ok f →
      parseFrameHdr p f =
        { isValid := true, reason := .valid, tidRaw := encTextField tid 16 0, tid := clean (encTextField tid 16 0),
          ts := ts, jc := jc, rc := 0, len := payload.length, payload := payload }

/-- R107: one flipped bit makes a built frame invalid, with the reason the flipped byte sets. -/
def Obligations.OneFlippedBitIsDetected : Prop :=
  ∀ (p : Params) (tid ts : Bytes) (jc : Byte) (payload f : Bytes) (k b : Nat),
    buildFrameBytes p tid ts jc payload = .ok f → k < f.length → b < 8 →
      parseFrameHdr p (flipBit f k b) =
        invalidHdr (if k = 0 then .badStx else if k = 33 ∨ k = 34 then .lenMismatch
          else if k = 35 + payload.length then .badEtx else .badBcc)

/-- R108: the scanner on a built frame: alone, followed by anything, cut short, and behind noise. -/
def Obligations.ScannerFindsTheBuiltFrame : Prop :=
  ∀ (p : Params) (tid ts : Bytes) (jc : Byte) (payload f : Bytes),
    buildFrameBytes p tid ts jc payload = .ok f →
      scanWindow p f = ⟨.complete, 0, f.length⟩ ∧
      (∀ x : Bytes, scanWindow p (f ++ x) = ⟨.complete, 0, f.length⟩) ∧
      (∀ j : Nat, 1 ≤ j → j < f.length → scanWindow p (f.take j) = ⟨.incomplete, 0, 0⟩) ∧
      scanWindow p (f.take 0) = ⟨.noFrame, 0, 0⟩ ∧
      (∀ g : Bytes, p.stx ∉ g → scanWindow p (g ++ f) = ⟨.complete, g.length, f.length⟩)

/-- R109: a complete candidate is valid or fails its checksum only. -/
def Obligations.CompleteCandidateCanOnlyFailItsChecksum : Prop :=
  ∀ (p : Params) (w : Bytes) (i n : Nat),
    scanWindow p w = ⟨.complete, i, n⟩ →
      (parseFrameHdr p ((w.drop i).take n)).isValid = true ∨ parseFrameHdr p ((w.drop i).take n) = invalidHdr .badBcc

/-- R110: a candidate whose end-sentinel byte is present and wrong stays incomplete whatever is appended. -/
def Obligations.StalledCandidateStaysIncomplete : Prop :=
  ∀ (p : Params) (w x : Bytes) (i : Nat),
    scanWindow p w = ⟨.incomplete, i, 0⟩ → 35 ≤ w.length - i → 37 + rd16 w (i + 33) ≤ w.length - i →
      scanWindow p (w ++ x) = ⟨.incomplete, i, 0⟩

/-! ### Messages -/

/-- R120, R70: BUILD_APPROVAL_REQ's checks in order, and its frame: what BUILD_FRAME answers for the 30-byte payload. -/
def Obligations.ApprovalRequestIsTheFramedPayload : Prop :=
  ∀ (tid ts : Bytes) (tt : Byte) (amount tax charge inst : Nat) (sig : Byte) (s : State),
    (ts.length ≠ 14 →
      exec (.buildApprovalReq tid ts tt amount tax charge inst sig) s = .next (s.withResult 0x20 .badOperand none)) ∧
    (ts.length = 14 → s.params.overflowPolicy = .reject →
      10 ^ 10 ≤ amount ∨ 10 ^ 8 ≤ tax ∨ 10 ^ 8 ≤ charge ∨ 10 ^ 2 ≤ inst →
      exec (.buildApprovalReq tid ts tt amount tax charge inst sig) s = .next (s.withResult 0x20 .valueTooLarge none)) ∧
    (ts.length = 14 →
      s.params.overflowPolicy = .truncateHigh ∨ (amount < 10 ^ 10 ∧ tax < 10 ^ 8 ∧ charge < 10 ^ 8 ∧ inst < 10 ^ 2) →
      ∃ f : Bytes, f.length = 67 ∧
        exec (.buildApprovalReq tid ts tt amount tax charge inst sig) s =
          .next (s.withResult 0x20 .ok (some (.frame f))) ∧
        exec (.buildFrame tid ts s.params.jcApprovalReq
            ([tt] ++ decimalField amount 10 ++ decimalField tax 8 ++ decimalField charge 8 ++ decimalField inst 2 ++
              [sig])) s =
          .next (s.withResult 0x10 .ok (some (.frame f))))

/-- R121, R71, R122: BUILD_CANCEL_REQ's checks in order, and its frame: what BUILD_FRAME answers for the payload of
`59 + |a|` bytes. An absent additional information counts as an empty one. -/
def Obligations.CancelRequestIsTheFramedPayload : Prop :=
  ∀ (tid ts : Bytes) (ct tt : Byte) (amount tax charge inst : Nat) (sig : Byte) (appr date time : Bytes)
    (info : Option Bytes) (s : State),
    (ts.length ≠ 14 ∨ date.length ≠ s.params.wOdate ∨ time.length ≠ s.params.wOtime →
      exec (.buildCancelReq tid ts ct tt amount tax charge inst sig appr date time info) s =
        .next (s.withResult 0x21 .badOperand none)) ∧
    (ts.length = 14 → date.length = s.params.wOdate → time.length = s.params.wOtime →
      (99 < (info.getD []).length →
        exec (.buildCancelReq tid ts ct tt amount tax charge inst sig appr date time info) s =
          .next (s.withResult 0x21 .fieldTooLong none)) ∧
      ((info.getD []).length ≤ 99 → s.params.overflowPolicy = .reject →
        10 ^ 10 ≤ amount ∨ 10 ^ 8 ≤ tax ∨ 10 ^ 8 ≤ charge ∨ 10 ^ 2 ≤ inst →
        exec (.buildCancelReq tid ts ct tt amount tax charge inst sig appr date time info) s =
          .next (s.withResult 0x21 .valueTooLarge none)) ∧
      ((info.getD []).length ≤ 99 →
        s.params.overflowPolicy = .truncateHigh ∨ (amount < 10 ^ 10 ∧ tax < 10 ^ 8 ∧ charge < 10 ^ 8 ∧ inst < 10 ^ 2) →
        ∃ f : Bytes, f.length = 96 + (info.getD []).length ∧
          exec (.buildCancelReq tid ts ct tt amount tax charge inst sig appr date time info) s =
            .next (s.withResult 0x21 .ok (some (.frame f))) ∧
          exec (.buildFrame tid ts s.params.jcCancelReq
              ([ct] ++ [tt] ++ decimalField amount 10 ++ decimalField tax 8 ++ decimalField charge 8 ++
                decimalField inst 2 ++ [sig] ++
                (appr ++ List.replicate s.params.wApprno 0x20).take s.params.wApprno ++ date ++ time ++
                decimalField (info.getD []).length 2 ++ info.getD [])) s =
            .next (s.withResult 0x10 .ok (some (.frame f)))))

/-- R123 to R125, R72: DEC_APPROVAL_RSP of a short payload, and of an approved one: every output field from its fixed
cumulative offset. -/
def Obligations.ApprovalResponseApproved : Prop :=
  ∀ (payload : Bytes) (s : State) (w : List Nat),
    w = [1, 1, s.params.approvalLayout.cardNumber, s.params.approvalLayout.approvedAmount, s.params.approvalLayout.tax,
      s.params.approvalLayout.serviceCharge, s.params.approvalLayout.installmentCount,
      s.params.approvalLayout.approvalNumber, s.params.approvalLayout.salesDate, s.params.approvalLayout.salesTime,
      s.params.approvalLayout.transactionId, s.params.approvalLayout.merchantId,
      s.params.approvalLayout.terminalNumber, 20, 20] →
    (payload.length < w.sum → exec (.decApprovalRsp payload) s = .next (s.withResult 0x22 .decodeShort none)) ∧
    (w.sum ≤ payload.length → payload.getD 0 0 = s.params.ttApproved →
      exec (.decApprovalRsp payload) s = .next (s.withResult 0x22 .ok (some (.approvalRsp
        { transactionType := classifyCode s.params .tt (payload.getD 0 0)
          transactionMedia := classifyCode s.params .media (payload.getD 1 0)
          cardNumber := clean (fieldSlice payload w 2)
          approvedAmount := decNumField (fieldSlice payload w 3)
          tax := decNumField (fieldSlice payload w 4)
          serviceCharge := decNumField (fieldSlice payload w 5)
          installmentCount := decNumField (fieldSlice payload w 6)
          approvalNumber := clean (fieldSlice payload w 7)
          salesDate := clean (fieldSlice payload w 8)
          salesTime := clean (fieldSlice payload w 9)
          transactionId := clean (fieldSlice payload w 10)
          merchantId := clean (fieldSlice payload w 11)
          terminalNumber := clean (fieldSlice payload w 12)
          issuerCode := clean ((fieldSlice payload w 13).take s.params.issuerCodeW)
          issuerName := ⟨clean ((fieldSlice payload w 13).drop s.params.issuerCodeW),
            krValid s.params (clean ((fieldSlice payload w 13).drop s.params.issuerCodeW))⟩
          acquirerCode := clean ((fieldSlice payload w 14).take s.params.acquirerCodeW)
          acquirerName := ⟨clean ((fieldSlice payload w 14).drop s.params.acquirerCodeW),
            krValid s.params (clean ((fieldSlice payload w 14).drop s.params.acquirerCodeW))⟩
          isRejected := false
          rejectCode := none
          rejectMessage := none }))))

/-- R124, R126, R130: DEC_APPROVAL_RSP of a payload that is not approved is no error: `isRejected`, the same fields, empty
issuer and acquirer, and the reject code and message by R126. -/
def Obligations.ApprovalResponseRejected : Prop :=
  ∀ (payload : Bytes) (s : State) (w : List Nat),
    w = approvalWidths s.params.approvalLayout → w.sum ≤ payload.length → payload.getD 0 0 ≠ s.params.ttApproved →
      ∃ r : ApprovalRsp,
        exec (.decApprovalRsp payload) s = .next (s.withResult 0x22 .ok (some (.approvalRsp r))) ∧
        r.isRejected = true ∧
        r.transactionType = classifyCode s.params .tt (payload.getD 0 0) ∧
        r.transactionMedia = classifyCode s.params .media (payload.getD 1 0) ∧
        r.cardNumber = clean (fieldSlice payload w 2) ∧
        r.approvedAmount = decNumField (fieldSlice payload w 3) ∧
        r.tax = decNumField (fieldSlice payload w 4) ∧
        r.serviceCharge = decNumField (fieldSlice payload w 5) ∧
        r.installmentCount = decNumField (fieldSlice payload w 6) ∧
        r.approvalNumber = clean (fieldSlice payload w 7) ∧
        r.salesDate = clean (fieldSlice payload w 8) ∧
        r.salesTime = clean (fieldSlice payload w 9) ∧
        r.transactionId = clean (fieldSlice payload w 10) ∧
        r.merchantId = clean (fieldSlice payload w 11) ∧
        r.terminalNumber = clean (fieldSlice payload w 12) ∧
        r.issuerCode = [] ∧ r.issuerName.text = [] ∧ r.acquirerCode = [] ∧ r.acquirerName.text = [] ∧
        (∀ (c0 c1 : Byte) (rest : Bytes), clean (fieldSlice payload w 14) = 0x2D :: c0 :: c1 :: rest →
          r.rejectCode = some [c0, c1] ∧
          (∀ m : Bytes, s.params.errTable.lookup (c0, c1) = some m → r.rejectMessage = some ⟨m, true, true⟩) ∧
          (s.params.errTable.lookup (c0, c1) = none →
            r.rejectMessage = some ⟨clean rest, krValid s.params (clean rest), false⟩)) ∧
        ((∀ (c0 c1 : Byte) (rest : Bytes), clean (fieldSlice payload w 14) ≠ 0x2D :: c0 :: c1 :: rest) →
          r.rejectCode = none ∧
          r.rejectMessage = some ⟨clean (fieldSlice payload w 13),
            krValid s.params (clean (fieldSlice payload w 13)), false⟩)

/-- R132: the rejected scenario: an acquirer field "-07SOME TEXT" padded with spaces or 0x00 gives code "07" and the
table's message. -/
def Obligations.KnownRejectCodeGivesTheTableMessage : Prop :=
  ∀ (payload pad m : Bytes) (s : State) (w : List Nat),
    w = approvalWidths s.params.approvalLayout → w.sum ≤ payload.length → payload.getD 0 0 = s.params.ttRejected →
    (∀ b ∈ pad, b = 0x20 ∨ b = 0) →
    fieldSlice payload w 14 =
      [0x2D, 0x30, 0x37, 0x53, 0x4F, 0x4D, 0x45, 0x20, 0x54, 0x45, 0x58, 0x54] ++ pad →
    s.params.errTable.lookup (0x30, 0x37) = some m →
      ∃ r : ApprovalRsp,
        exec (.decApprovalRsp payload) s = .next (s.withResult 0x22 .ok (some (.approvalRsp r))) ∧
        r.isRejected = true ∧ r.rejectCode = some [0x30, 0x37] ∧ r.rejectMessage = some ⟨m, true, true⟩

/-- R127, R73: DEC_CARDINQ_RSP: every output field from its offset; a short payload is ERR_DECODE_SHORT. -/
def Obligations.CardInquiryResponseFields : Prop :=
  ∀ (payload : Bytes) (s : State) (w : List Nat),
    w = [1, s.params.cardInqLayout.cardType, s.params.cardInqLayout.cardNumber,
      s.params.cardInqLayout.lastTransactionDateTime, s.params.cardInqLayout.lastTransactionAmount,
      s.params.cardInqLayout.cardBalance, s.params.cardInqLayout.transactionStatus] →
    (payload.length < w.sum → exec (.decCardinqRsp payload) s = .next (s.withResult 0x23 .decodeShort none)) ∧
    (w.sum ≤ payload.length →
      exec (.decCardinqRsp payload) s = .next (s.withResult 0x23 .ok (some (.cardInqRsp
        { transactionMedia := classifyCode s.params .media (payload.getD 0 0)
          cardType := clean (fieldSlice payload w 1)
          cardNumber := clean (fieldSlice payload w 2)
          lastTransactionDateTime := clean (fieldSlice payload w 3)
          lastTransactionAmount := decNumField (fieldSlice payload w 4)
          cardBalance := decNumField (fieldSlice payload w 5)
          transactionStatus := clean (fieldSlice payload w 6) }))))

/-- R128, R74: DEC_DEVCHK_RSP: the four statuses in order; a payload under 4 bytes is ERR_DECODE_SHORT. -/
def Obligations.DeviceCheckStatuses : Prop :=
  ∀ (s : State),
    (∀ payload : Bytes, payload.length < 4 →
      exec (.decDevchkRsp payload) s = .next (s.withResult 0x24 .decodeShort none)) ∧
    (∀ (a b c d : Byte) (rest : Bytes),
      exec (.decDevchkRsp (a :: b :: c :: d :: rest)) s = .next (s.withResult 0x24 .ok (some (.devchkRsp
        ⟨classifyCode s.params .devStatus a, classifyCode s.params .devStatus b, classifyCode s.params .devStatus c,
          classifyCode s.params .devStatus d⟩))))

/-- R129, R75: DEC_EVENT_RSP: the event type of byte 0; an empty payload is ERR_DECODE_SHORT. -/
def Obligations.EventResponseType : Prop :=
  ∀ (s : State),
    exec (.decEventRsp []) s = .next (s.withResult 0x25 .decodeShort none) ∧
    (∀ (a : Byte) (rest : Bytes),
      exec (.decEventRsp (a :: rest)) s =
        .next (s.withResult 0x25 .ok (some (.eventRsp (classifyCode s.params .event a)))))

/-- R21, R80: a codec command's only effect is one result record, and which one depends on its operands and the
configuration alone. -/
def Obligations.CodecCommandsArePure : Prop :=
  ∀ i : Instr, isCodec i = true →
    ∀ s : State, ∃ (code : ResultCode) (out : Option Out),
      (code = .ok ↔ out.isSome = true) ∧
      ∀ s' : State, s'.cfg = s.cfg → exec i s' = .next (s'.withResult i.opcode.byte code out)

/-! ### Protocol engine, one event each -/

/-- R153: CONNECT in each state of the connection. -/
def Obligations.ConnectOpensTheChannel : Prop :=
  ∀ (address : Bytes) (baud : Option Nat) (s : State),
    (s.connected = true → exec (.connect address baud) s = .next (s.withResult 0x30 .alreadyConnected none)) ∧
    (s.connected = false → s.opening = true →
      exec (.connect address baud) s = .next (s.withResult 0x30 .busy none)) ∧
    (s.connected = false → s.opening = false →
      exec (.connect address baud) s = .next { s with
        opening := true
        chanreq := s.chanreq ++ [.openChannel address (baud.getD s.params.defaultBaud) s.params.lineParams]
        trace := s.trace ++ [.chan (.openChannel address (baud.getD s.params.defaultBaud) s.params.lineParams)] })

/-- R154: OPEN_DONE completes the CONNECT that is opening, and is ignored otherwise. -/
def Obligations.OpenDoneCompletesTheConnect : Prop :=
  ∀ (s : State),
    (∀ ok : Bool, s.opening = false → exec (.openDone ok) s = .next s) ∧
    (s.opening = true → exec (.openDone true) s = .next { s with
      opening := false
      connected := true
      rxbuf := []
      notes := s.notes ++ [.connected]
      results := s.results ++ [⟨0x30, .ok, some .empty⟩]
      trace := s.trace ++ [.note .connected, .result ⟨0x30, .ok, some .empty⟩] }) ∧
    (s.opening = true →
      exec (.openDone false) s = .next (State.withResult { s with opening := false } 0x30 .openFailed none))

/-- R155: DISCONNECT while opening, while not connected, while idle and while a send is in flight: what it appends, in
which order, and the state it leaves. -/
def Obligations.DisconnectCancelsAndCloses : Prop :=
  ∀ (s : State),
    (s.opening = true → exec .disconnect s = .next { s with
      opening := false
      chanreq := s.chanreq ++ [.close]
      results := s.results ++ [⟨0x30, .disconnecting, none⟩, ⟨0x31, .ok, some .empty⟩]
      trace := s.trace ++
        [.result ⟨0x30, .disconnecting, none⟩, .chan .close, .result ⟨0x31, .ok, some .empty⟩] }) ∧
    (s.opening = false → s.connected = false →
      exec .disconnect s = .next (s.withResult 0x31 .ok (some .empty))) ∧
    (s.opening = false → s.connected = true → s.phase = .idle → exec .disconnect s = .next { s with
      connected := false
      rxbuf := []
      chanreq := s.chanreq ++ [.close]
      notes := s.notes ++ [.disconnected]
      results := s.results ++ [⟨0x31, .ok, some .empty⟩]
      trace := s.trace ++ [.chan .close, .note .disconnected, .result ⟨0x31, .ok, some .empty⟩] }) ∧
    (s.opening = false → s.connected = true → s.phase ≠ .idle → exec .disconnect s = .next { s.sendIdle with
      connected := false
      rxbuf := []
      chanreq := s.chanreq ++ [.close]
      notes := s.notes ++ [.disconnected]
      results := s.results ++ [⟨0x32, .disconnecting, none⟩, ⟨0x31, .ok, some .empty⟩]
      trace := s.trace ++ [.result ⟨0x32, .disconnecting, none⟩, .chan .close, .note .disconnected,
        .result ⟨0x31, .ok, some .empty⟩] })

/-- R156: SEND fails fast while not connected, is rejected while one is in flight, and else writes its frame. -/
def Obligations.SendWritesOneFrameAtATime : Prop :=
  ∀ (frame : Bytes) (expectResponse : Bool) (s : State),
    (s.connected = false → exec (.send frame expectResponse) s = .next (s.withResult 0x32 .notConnected none)) ∧
    (s.connected = true → s.phase ≠ .idle →
      exec (.send frame expectResponse) s = .next (s.withResult 0x32 .busy none)) ∧
    (s.connected = true → s.phase = .idle →
      exec (.send frame expectResponse) s =
        .next (State.frameWritten { s with txframe := frame, expect := expectResponse } 1))

/-- R157: TX_DONE starts the ACK wait, or ends the send with ERR_WRITE_FAILED; outside TX_DRAIN it is ignored. -/
def Obligations.TxDoneStartsTheAckWait : Prop :=
  ∀ (s : State),
    (∀ ok : Bool, s.phase ≠ .txDrain → exec (.txDone ok) s = .next s) ∧
    (s.phase = .txDrain → exec (.txDone true) s = .next { s with phase := .ackWait, timer := 0 }) ∧
    (s.phase = .txDrain → exec (.txDone false) s = .next (s.withResult 0x32 .writeFailed none).sendIdle)

/-- R158, R152: TICK counts in the two waits only; an expired ACK wait is retried, an expired response wait is not. -/
def Obligations.TickCountsInTheTwoWaits : Prop :=
  ∀ (s : State),
    (s.phase = .idle ∨ s.phase = .txDrain → exec .tick s = .next s) ∧
    (s.phase = .ackWait → s.timer + 1 < s.params.ackTimeout → exec .tick s = .next { s with timer := s.timer + 1 }) ∧
    (s.phase = .ackWait → s.params.ackTimeout ≤ s.timer + 1 → exec .tick s = .next s.retried) ∧
    (s.phase = .rspWait → s.timer + 1 < s.params.rspTimeout → exec .tick s = .next { s with timer := s.timer + 1 }) ∧
    (s.phase = .rspWait → s.params.rspTimeout ≤ s.timer + 1 →
      exec .tick s = .next (s.withResult 0x32 .responseTimeout none).sendIdle)

/-- R160, R159, R152: RX_CHUNK while not connected, of an empty chunk, and of one handshake byte in each phase; a half
received frame stays in `rxbuf` untouched (R218). -/
def Obligations.HandshakeByteResolvesTheAckWait : Prop :=
  ∀ (s : State),
    (∀ chunk : Bytes, s.connected = false → exec (.rxChunk chunk) s = .next s) ∧
    (exec (.rxChunk []) s = .next s) ∧
    (∀ b : Byte, s.connected = true → b = s.params.ack ∨ b = s.params.nak → s.phase ≠ .ackWait →
      exec (.rxChunk [b]) s = .next s) ∧
    (s.connected = true → s.phase = .ackWait → s.expect = false →
      exec (.rxChunk [s.params.ack]) s = .next (s.withResult 0x32 .ok (some (.response none))).sendIdle) ∧
    (s.connected = true → s.phase = .ackWait → s.expect = true →
      exec (.rxChunk [s.params.ack]) s = .next { s with phase := .rspWait, timer := 0 }) ∧
    (s.connected = true → s.phase = .ackWait → exec (.rxChunk [s.params.nak]) s = .next s.retried)

/-- R160, R161, R163: every other chunk is appended and the buffer is reassembled: one pass of the scan loop, as an
equation, for each of its four cases. -/
def Obligations.ChunkIsAppendedAndReassembled : Prop :=
  (∀ (chunk : Bytes) (s : State), s.connected = true → chunk ≠ [] →
    (∀ b : Byte, chunk = [b] → b ≠ s.params.ack ∧ b ≠ s.params.nak) →
    exec (.rxChunk chunk) s = .next (State.reassemble { s with rxbuf := s.rxbuf ++ chunk })) ∧
  (∀ s : State, s.params.stx ∉ s.rxbuf → s.reassemble = { s with rxbuf := [] }) ∧
  (∀ (s : State) (g c : Bytes), s.rxbuf = g ++ c → s.params.stx ∉ g → c.head? = some s.params.stx →
    (∀ n : Nat, scanWindow s.params c = ⟨.complete, 0, n⟩ →
      s.reassemble = State.reassemble (State.dispatch (c.take n) { s with rxbuf := c.drop n })) ∧
    (scanWindow s.params c = ⟨.incomplete, 0, 0⟩ → c.length ≤ s.params.rxbufCap →
      s.reassemble = { s with rxbuf := c }) ∧
    (scanWindow s.params c = ⟨.incomplete, 0, 0⟩ → s.params.rxbufCap < c.length →
      s.reassemble = State.reassemble { s with rxbuf := c.drop 1, rxOverflow := true }))

/-- R162: what becomes of one complete candidate: NACK, event, response with the ACK written immediately before the
result, or unexpected packet. -/
def Obligations.DispatchDeliversTheFrame : Prop :=
  ∀ (f : Bytes) (s : State) (h : FrameHdr), h = parseFrameHdr s.params f →
    (h.isValid = false → s.dispatch f = { s with
      txlog := s.txlog ++ [[s.params.nak]]
      trace := s.trace ++ [.tx [s.params.nak]] }) ∧
    (h.isValid = true → h.jc = s.params.jcEventRsp → s.dispatch f = { s with
      notes := s.notes ++ [.event f h]
      trace := s.trace ++ [.note (.event f h)] }) ∧
    (h.isValid = true → h.jc ≠ s.params.jcEventRsp → s.phase = .rspWait → s.dispatch f = { s.sendIdle with
      txlog := s.txlog ++ [[s.params.ack]]
      results := s.results ++ [⟨0x32, .ok, some (.response (some ⟨f, h⟩))⟩]
      trace := s.trace ++ [.tx [s.params.ack], .result ⟨0x32, .ok, some (.response (some ⟨f, h⟩))⟩] }) ∧
    (h.isValid = true → h.jc ≠ s.params.jcEventRsp → s.phase ≠ .rspWait → s.dispatch f = { s with
      notes := s.notes ++ [.unexpectedPacket f h]
      trace := s.trace ++ [.note (.unexpectedPacket f h)] })

/-- R164, R35: READ_REG of each register, and of a number that is none; no other state changes. -/
def Obligations.ReadRegShowsTheEngineState : Prop :=
  ∀ (s : State),
    exec (.readReg 0) s = .next (s.withResult 0x33 .ok
      (some (.value ((if s.connected then 1 else 0) + (if s.opening then 2 else 0))))) ∧
    exec (.readReg 1) s = .next (s.withResult 0x33 .ok
      (some (.value (match s.phase with | .idle => 0 | .txDrain => 1 | .ackWait => 2 | .rspWait => 3)))) ∧
    exec (.readReg 2) s = .next (s.withResult 0x33 .ok (some (.value s.attempt))) ∧
    exec (.readReg 3) s = .next (s.withResult 0x33 .ok (some (.value s.timer))) ∧
    exec (.readReg 4) s = .next (s.withResult 0x33 .ok (some (.value s.rxbuf.length))) ∧
    exec (.readReg 5) s = .next (s.withResult 0x33 .ok
      (some (.value ((if s.expect then 1 else 0) + (if s.rxOverflow then 2 else 0))))) ∧
    ∀ n : Nat, 5 < n → exec (.readReg n) s = .next (s.withResult 0x33 .badOperand none)

/-- R215: RESET sets every engine field to its reset value and changes no log. -/
def Obligations.ResetRestoresTheEngine : Prop :=
  ∀ (s : State), exec .reset s = .next { State.reset with
    txlog := s.txlog, chanreq := s.chanreq, notes := s.notes, results := s.results, trace := s.trace, input := s.input,
    cfg := s.cfg }

/-- R39, R21, R35: at power-up every engine field is at its reset value, the four logs are empty and every register reads
0; after RESET every engine field is at its reset value and the logs are as before. -/
def Obligations.ResetState : Prop :=
  State.reset.EngineReset ∧
  State.reset.txlog = [] ∧ State.reset.chanreq = [] ∧ State.reset.notes = [] ∧ State.reset.results = [] ∧
  (∀ n : Nat, n ≤ 5 → exec (.readReg n) State.reset = .next (State.reset.withResult 0x33 .ok (some (.value 0)))) ∧
  ∀ s : State, ∃ t : State, exec .reset s = .next t ∧ t.EngineReset ∧
    t.txlog = s.txlog ∧ t.chanreq = s.chanreq ∧ t.notes = s.notes ∧ t.results = s.results

/-! ### Whole-machine rules -/

/-- R33, R25, R29: the invariants (I1) to (I9) hold after every step, from every state that meets them. -/
def Obligations.EveryStepKeepsTheInvariants : Prop :=
  ∀ s t : State, s.Inv → step s = .next t → t.Inv

/-- R33, R39: the invariants hold at reset. -/
def Obligations.ResetMeetsTheInvariants : Prop :=
  State.reset.Inv ∧ State.reset.LogsMatchTrace

/-- R50: every step keeps each log equal to the merged trace's entries of its kind. -/
def Obligations.EveryStepKeepsLogsAndTraceTogether : Prop :=
  ∀ s t : State, s.LogsMatchTrace → step s = .next t → t.LogsMatchTrace

/-- R31: the output logs are append-only; no event, not even RESET (R215), drops or reorders an entry. The same is said of
the merged trace, which R50 allows and the model keeps by its own choice (log entry 6). -/
def Obligations.LogsAreAppendOnly : Prop :=
  ∀ s t : State, step s = .next t → s.Extends t

/-- R36: no event changes the configuration. That no event changes the records still to come in the input queue either is
a statement about the model's own choice of such a queue (log entry 4). -/
def Obligations.NoEventChangesTheConfiguration : Prop :=
  ∀ (i : Instr) (s t : State), exec i s = .next t → t.cfg = s.cfg ∧ t.input = s.input

/-- R166: results are conserved: each SEND and each CONNECT gets exactly one result record, at once or when its send or
connect ends; RESET abandons what is owed. -/
def Obligations.OneResultForEachSendAndConnect : Prop :=
  ∀ (i : Instr) (s t : State), exec i s = .next t → i ≠ .reset →
    t.resultCount 0x32 + t.sendOwed =
      s.resultCount 0x32 + s.sendOwed + (if i.opcode = .send then 1 else 0) ∧
    t.resultCount 0x30 + t.connectOwed =
      s.resultCount 0x30 + s.connectOwed + (if i.opcode = .connect then 1 else 0)

/-- R167, R158: the ticks a send in flight can still take never rise while it is in flight, every TICK in a wait lowers
them, and they are at most `P_MAX_ATTEMPTS * P_ACK_TIMEOUT + P_RSP_TIMEOUT`. -/
def Obligations.SendEndsWithinItsTickBound : Prop :=
  ∀ (i : Instr) (s t : State), s.Inv → s.phase ≠ .idle → exec i s = .next t →
    s.ticksLeft ≤ s.params.maxAttempts * s.params.ackTimeout + s.params.rspTimeout ∧
    (t.phase = .idle ∨
      (t.ticksLeft ≤ s.ticksLeft ∧ (i = .tick → s.phase ≠ .txDrain → t.ticksLeft < s.ticksLeft)))

/-- R169: the phase changes only by the transitions of the summary table, each under its condition, and by RESET (R215).
A timeout TICK is one that brings the timer to the limit of the wait (R158). The response that ends a send is a valid
frame, not an event frame, found in the bytes received, and is reported in the send's result (R162). -/
def Obligations.PhaseChangesOnlyByTheTable : Prop :=
  ∀ (i : Instr) (s t : State), exec i s = .next t → t.phase ≠ s.phase →
    (s.phase = .idle ∧ t.phase = .txDrain ∧ s.connected = true ∧ ∃ f e, i = .send f e) ∨
    (s.phase = .txDrain ∧ t.phase = .ackWait ∧ i = .txDone true) ∨
    (s.phase = .txDrain ∧ t.phase = .idle ∧ i = .txDone false) ∨
    (s.phase = .ackWait ∧ t.phase = .idle ∧ i = .rxChunk [s.params.ack] ∧ s.expect = false) ∨
    (s.phase = .ackWait ∧ t.phase = .rspWait ∧ i = .rxChunk [s.params.ack] ∧ s.expect = true) ∨
    (s.phase = .ackWait ∧ t.phase = .txDrain ∧
      (i = .rxChunk [s.params.nak] ∨ (i = .tick ∧ s.params.ackTimeout ≤ s.timer + 1)) ∧
      s.attempt < s.params.maxAttempts) ∨
    (s.phase = .ackWait ∧ t.phase = .idle ∧
      (i = .rxChunk [s.params.nak] ∨ (i = .tick ∧ s.params.ackTimeout ≤ s.timer + 1)) ∧
      s.params.maxAttempts ≤ s.attempt) ∨
    (∃ c : Bytes, i = .rxChunk c ∧ State.AnsweredFrom (s.rxbuf ++ c) s t) ∨
    (s.phase = .rspWait ∧ t.phase = .idle ∧ i = .tick ∧ s.params.rspTimeout ≤ s.timer + 1) ∨
    (t.phase = .idle ∧ t.connected = false ∧ (i = .disconnect ∨ i = .reset))

/-- R158, R28: a wait expires on the TICK that brings its timer to the limit, and not before. -/
def Obligations.WaitsExpireOnTheirLastTick : Prop :=
  ∀ (k : Nat) (s : State) (rest : List EventRecord), s.input = List.replicate k ⟨0x42, []⟩ ++ rest →
    (s.phase = .ackWait → s.timer + k < s.params.ackTimeout →
      Sys2Proof.core.run k s = .next { s with timer := s.timer + k, input := rest }) ∧
    (s.phase = .ackWait → 0 < k → s.timer + k = s.params.ackTimeout →
      Sys2Proof.core.run k s = .next (State.retried { s with input := rest })) ∧
    (s.phase = .rspWait → s.timer + k < s.params.rspTimeout →
      Sys2Proof.core.run k s = .next { s with timer := s.timer + k, input := rest }) ∧
    (s.phase = .rspWait → 0 < k → s.timer + k = s.params.rspTimeout →
      Sys2Proof.core.run k s =
        .next (State.sendIdle (State.withResult { s with input := rest } 0x32 .responseTimeout none)))

/-- R222: a NACK and the TICK that expires the ACK wait: both orders give one retry and the same state. -/
def Obligations.NackAndTimeoutRaceIsBenign : Prop :=
  ∀ s : State, s.connected = true → s.phase = .ackWait → s.timer + 1 = s.params.ackTimeout →
    exec .tick s = .next s.retried ∧ exec (.rxChunk [s.params.nak]) s.retried = .next s.retried ∧
    exec (.rxChunk [s.params.nak]) s = .next s.retried ∧ exec .tick s.retried = .next s.retried
end

