-- ==== Sys2Proof/Laws/Bytes.lean ====
section
/-! SUPPORT. What the byte-string operations of Ops.lean do, once each: slices in terms of take and drop, the first
occurrence of a byte, and the payload-length field. -/

namespace Sys2Proof.Machine

/-! ### Slices and reads -/

@[simp] theorem slice_zero (s : Bytes) (j : Nat) : slice s 0 j = s.take j := by simp [slice]

@[simp] theorem slice_length_self (s : Bytes) (i : Nat) : slice s i s.length = s.drop i := by
  simp [slice, List.take_of_length_le]

theorem slice_eq (s : Bytes) (i j : Nat) : slice s i j = (s.drop i).take (j - i) := rfl

theorem length_slice (s : Bytes) (i j : Nat) : (slice s i j).length = min (j - i) (s.length - i) := by simp [slice]

theorem byteAt_eq_getD (s : Bytes) (i : Nat) : byteAt s i = s.getD i 0 := rfl

@[simp] theorem byteAt_cons_zero (b : Byte) (s : Bytes) : byteAt (b :: s) 0 = b := rfl

@[simp] theorem byteAt_cons_succ (b : Byte) (s : Bytes) (i : Nat) : byteAt (b :: s) (i + 1) = byteAt s i := rfl

theorem byteAt_append_left {s t : Bytes} {i : Nat} (h : i < s.length) : byteAt (s ++ t) i = byteAt s i := by
  simp [byteAt, List.getElem?_append_left h]

theorem byteAt_append_right {s t : Bytes} {i : Nat} (h : s.length ≤ i) :
    byteAt (s ++ t) i = byteAt t (i - s.length) := by
  simp [byteAt, List.getElem?_append_right h]

theorem byteAt_drop (s : Bytes) (i j : Nat) : byteAt (s.drop i) j = byteAt s (i + j) := by
  simp [byteAt, List.getElem?_drop]

theorem byteAt_take {s : Bytes} {i j : Nat} (h : j < i) : byteAt (s.take i) j = byteAt s j := by
  simp [byteAt, h]

/-! ### `find`: the least index -/

theorem find_eq_none_iff {s : Bytes} {b : Byte} : find s b = none ↔ b ∉ s := by
  induction s with
  | nil => simp [find]
  | cons a s ih =>
    by_cases h : a = b
    · simp [find, h]
    · simp [find, h, ih, Ne.symm h]

/-- `find` answers the length of what stands before the first occurrence. -/
theorem find_append_cons {g : Bytes} {b : Byte} (hg : b ∉ g) (c : Bytes) : find (g ++ b :: c) b = some g.length := by
  induction g with
  | nil => simp [find]
  | cons a g ih =>
    simp only [List.mem_cons, not_or] at hg
    simp [find, Ne.symm hg.1, ih hg.2]

/-- Everything a successful `find` says of its string. -/
theorem find_eq_some {s : Bytes} {b : Byte} {i : Nat} (h : find s b = some i) :
    ∃ g c : Bytes, s = g ++ b :: c ∧ g.length = i ∧ b ∉ g := by
  induction s generalizing i with
  | nil => simp [find] at h
  | cons a s ih =>
    by_cases hab : a = b
    · subst hab
      simp [find] at h
      exact ⟨[], s, rfl, h, by simp⟩
    · simp only [find, hab, if_false, Option.map_eq_some_iff] at h
      obtain ⟨j, hj, rfl⟩ := h
      obtain ⟨g, c, rfl, hlen, hg⟩ := ih hj
      exact ⟨a :: g, c, rfl, by simp [hlen], by simp [hg, Ne.symm hab]⟩

/-! ### The payload-length field -/

@[simp] theorem length_le16 (v : Nat) : (le16 v).length = 2 := rfl

/-- A reader recovers the length that was written (spec/30_encoding.md R62). -/
theorem rd16_le16 {v : Nat} (h : v ≤ 65535) (t : Bytes) : rd16 (le16 v ++ t) 0 = v := by
  simp [rd16, le16, byteAt]
  omega

theorem rd16_append_left {s t : Bytes} {i : Nat} (h : i + 1 < s.length) : rd16 (s ++ t) i = rd16 s i := by
  simp [rd16, byteAt_append_left (Nat.lt_of_succ_lt h), byteAt_append_left h]

theorem rd16_append_right {s t : Bytes} {i : Nat} (h : s.length ≤ i) : rd16 (s ++ t) i = rd16 t (i - s.length) := by
  simp [rd16, byteAt_append_right h, byteAt_append_right (Nat.le_succ_of_le h), Nat.sub_add_comm h]

theorem rd16_drop (s : Bytes) (i j : Nat) : rd16 (s.drop i) j = rd16 s (i + j) := by
  simp [rd16, byteAt_drop, Nat.add_assoc]

theorem rd16_take {s : Bytes} {i j : Nat} (h : j + 1 < i) : rd16 (s.take i) j = rd16 s j := by
  simp [rd16, byteAt_take (Nat.lt_of_succ_lt h), byteAt_take h]

theorem rd16_lt (s : Bytes) (i : Nat) : rd16 s i ≤ 65535 := by
  have h1 := (byteAt s i).isLt
  have h2 := (byteAt s (i + 1)).isLt
  simp only [rd16]
  omega

end Sys2Proof.Machine
end

