-- ==== Sys2Proof/Laws/Codec.lean ====
section
/-! SUPPORT. What the shared codec operations of Operands.lean do, said once each: the checksum, decimal and text fields, the
frame a builder answers, the scanner, and the layout reader. -/

namespace Sys2Proof.Machine

/-! ### Checksum -/

/-- The checksum as a left fold. -/
theorem foldl_xor (d : Bytes) (a : Byte) : d.foldl (· ^^^ ·) a = a ^^^ xorBytes d := by
  induction d generalizing a with
  | nil => simp [xorBytes]
  | cons b d ih => simp [xorBytes, ih, BitVec.xor_assoc]

/-- The checksum as a left fold from 0. -/
theorem foldl_xor_zero (d : Bytes) : d.foldl (· ^^^ ·) 0 = xorBytes d := by
  rw [foldl_xor]; simp

/-- The checksum of a concatenation. -/
theorem xorBytes_append (s t : Bytes) : xorBytes (s ++ t) = xorBytes s ^^^ xorBytes t := by
  induction s with
  | nil => simp [xorBytes]
  | cons b d ih => simp [xorBytes, ih, BitVec.xor_assoc]

/-- Changing one byte by a mask changes the checksum by that mask. -/
theorem xorBytes_set (s : Bytes) (k : Nat) (hk : k < s.length) (m : Byte) : xorBytes (s.set k (s.getD k 0 ^^^ m)) = xorBytes s ^^^ m := by
  induction s generalizing k with
  | nil => simp at hk
  | cons b d ih => 
    cases k with
    | zero => simp [xorBytes, BitVec.xor_assoc, BitVec.xor_comm]
    | succ k => 
      have := ih k (by simpa using hk)
      simp only [List.getD_eq_getElem?_getD] at this
      simp [xorBytes, BitVec.xor_assoc]; exact this

/-- A one-bit mask is not 0. -/
theorem oneBit_ne_zero (b : Nat) (h : b < 8) : BitVec.ofNat 8 (2 ^ b) ≠ 0 := by interval_cases b <;> decide

/-- A non-zero mask changes a byte. -/
theorem xor_ne_self {a m : Byte} (h : m ≠ 0) : a ^^^ m ≠ a := by
  intro e; apply h
  have := congrArg (a ^^^ ·) e
  simpa [← BitVec.xor_assoc] using this

/-- A flipped bit leaves every other byte alone. -/
theorem byteAt_flipBit_ne {s : Bytes} {k b i : Nat} (h : i ≠ k) : byteAt (flipBit s k b) i = byteAt s i := by
  simp [byteAt, flipBit, List.getElem?_set_ne (Ne.symm h)]

/-- A flipped bit changes its byte by a one-bit mask. -/
theorem byteAt_flipBit_eq {s : Bytes} {k b : Nat} (h : k < s.length) : byteAt (flipBit s k b) k = byteAt s k ^^^ BitVec.ofNat 8 (2^b) := by
  simp [byteAt, flipBit, h]

/-! ### Decimal fields -/

/-- Everything `decRev` says, given enough fuel. -/
theorem decRev_spec : ∀ (fuel v : Nat), v < 2 ^ fuel → 0 < fuel →
    (∀ i, i < (decRev fuel v).length → (decRev fuel v).getD i 0 = digit (v / 10 ^ i % 10)) ∧
    v < 10 ^ (decRev fuel v).length ∧ (decRev fuel v ≠ []) ∧ (10 ≤ v → 10 ^ ((decRev fuel v).length - 1) ≤ v) ∧ (v < 10 → (decRev fuel v).length = 1) := by
  intro fuel
  induction fuel with
  | zero => intro v h h0; omega
  | succ n ih =>
    intro v h _
    unfold decRev
    by_cases hv : v < 10
    · simp [hv]
      rw [Nat.mod_eq_of_lt hv]
    · simp only [hv, if_false]
      have hn : 0 < n := by
        rcases n with _ | n
        · simp at h; omega
        · omega
      have hlt : v / 10 < 2 ^ n := by
        rw [Nat.pow_succ] at h; omega
      obtain ⟨h1, h2, h3, h4, h5⟩ := ih (v / 10) hlt hn
      refine ⟨?_, ?_, by simp, ?_, fun hh => hh.elim⟩
      · intro i hi
        cases i with
        | zero => simp
        | succ i =>
          have := h1 i (by simpa using hi)
          simp only [List.getD_eq_getElem?_getD, List.getElem?_cons_succ] at this ⊢
          rw [this, Nat.div_div_eq_div_mul, Nat.pow_succ, Nat.mul_comm]
      · simp [Nat.pow_succ]; omega
      · intro _
        simp
        have hl : (decRev n (v/10)).length ≠ 0 := by simpa using h3
        by_cases h10 : 10 ≤ v / 10
        · have := h4 h10
          obtain ⟨k, hk⟩ := Nat.exists_eq_succ_of_ne_zero hl
          rw [hk] at this ⊢
          simp only [Nat.succ_eq_add_one, Nat.add_sub_cancel] at this ⊢
          rw [Nat.pow_succ]; omega
        · rw [h5 (by omega)]; omega

/-- Everything `dec` says: it is not empty, it is the shortest, and each digit by position. -/
theorem dec_facts (v : Nat) : (dec v).length ≠ 0 ∧ v < 10 ^ (dec v).length ∧ (10 ≤ v → 10 ^ ((dec v).length - 1) ≤ v) ∧ (v < 10 → (dec v).length = 1) ∧
   ∀ i, i < (dec v).length → (dec v)[i]? = some (digit (v / 10 ^ ((dec v).length - 1 - i) % 10)) := by
  obtain ⟨h1, h2, h3, h4, h5⟩ := decRev_spec (v.log2 + 1) v Nat.lt_log2_self (by omega)
  simp only [dec, List.length_reverse]
  refine ⟨by simpa using h3, h2, h4, h5, ?_⟩
  intro i hi
  rw [List.getElem?_reverse hi]
  have := h1 ((decRev (v.log2+1) v).length - 1 - i) (by omega)
  rw [List.getD_eq_getElem?_getD] at this
  rw [← this, List.getElem?_eq_getElem (by omega)]
  rfl

/-- `dec v` fits in `w` digits exactly when `v < 10^w`. -/
theorem dec_length_le (v w : Nat) (hw : 1 ≤ w) : (dec v).length ≤ w ↔ v < 10 ^ w := by
  obtain ⟨h0, h1, h2, h3, _⟩ := dec_facts v
  constructor
  · intro h
    exact lt_of_lt_of_le h1 (Nat.pow_le_pow_right (by omega) h)
  · intro h
    by_contra hc
    by_cases h10 : 10 ≤ v
    · have := h2 h10
      have : 10 ^ w ≤ 10 ^ ((dec v).length - 1) := Nat.pow_le_pow_right (by omega) (by omega)
      omega
    · have := h3 (by omega)
      omega

/-- The digits of a decimal field. -/
theorem getElem?_decimalField (v w i : Nat) (h : i < w) : (decimalField v w)[i]? = some (digit (v / 10 ^ (w - 1 - i) % 10)) := by
  simp [decimalField, h, digit]

/-- The width of a decimal field. -/
theorem length_decimalField (v w) : (decimalField v w).length = w := by simp [decimalField]

/-- A decimal field is the field of the higher digits, then the last digit. -/
theorem decimalField_succ (v w) : decimalField v (w+1) = decimalField (v/10) w ++ [digit (v % 10)] := by
  unfold decimalField
  rw [List.range_succ]
  simp [digit]
  intro i hi
  have : w - i = (w - 1 - i) + 1 := by omega
  rw [this, Nat.pow_succ, Nat.mul_comm, ← Nat.div_div_eq_div_mul]

/-- A decimal field holds digits only. -/
theorem mem_decimalField {v w b} (h : b ∈ decimalField v w) : ∃ n, n < 10 ∧ b = digit n := by
  simp [decimalField] at h
  obtain ⟨i, _, rfl⟩ := h
  exact ⟨_, Nat.mod_lt _ (by omega), rfl⟩

/-- ENC_NUM of a value that fits. -/
theorem encNumField_of_fits (pol v w) (hw : 1 ≤ w) (h : v < 10 ^ w) : encNumField pol v w = .ok (decimalField v w) := by
  have hl := (dec_length_le v w hw).2 h
  simp only [encNumField, hl, if_true, Except.ok.injEq]
  obtain ⟨h0, h1, h2, h3, h4⟩ := dec_facts v
  apply List.ext_getElem?
  intro i
  by_cases hi : i < w
  · rw [getElem?_decimalField v w i hi]
    by_cases hi2 : i < w - (dec v).length
    · rw [List.getElem?_append_left (by simpa using hi2)]
      simp [hi2]
      have : v / 10 ^ (w - 1 - i) = 0 := by
        apply Nat.div_eq_of_lt
        exact lt_of_lt_of_le h1 (Nat.pow_le_pow_right (by omega) (by omega))
      simp [this, digit]
    · rw [List.getElem?_append_right (by simp; omega)]
      simp only [List.length_replicate]
      rw [h4 _ (by omega)]
      congr 5; omega
  · rw [List.getElem?_eq_none (by simp; omega), List.getElem?_eq_none (by simp [decimalField]; omega)]

/-- ENC_NUM under TRUNCATE_HIGH. -/
theorem encNumField_truncateHigh (v w) (hw : 1 ≤ w) : encNumField .truncateHigh v w = .ok (decimalField v w) := by
  by_cases h : v < 10 ^ w
  · exact encNumField_of_fits _ v w hw h
  have hl := (dec_length_le v w hw).not.2 h
  simp only [encNumField, hl, if_false, Except.ok.injEq]
  obtain ⟨h0, h1, h2, h3, h4⟩ := dec_facts v
  apply List.ext_getElem?
  intro i
  simp only [slice_length_self]
  rw [List.getElem?_drop]
  by_cases hi : i < w
  · rw [getElem?_decimalField v w i hi, h4 _ (by omega)]
    congr 5; omega
  · rw [List.getElem?_eq_none (by omega), List.getElem?_eq_none (by simp [decimalField]; omega)]

/-- ENC_NUM under REJECT of a value that does not fit. -/
theorem encNumField_reject (v w) (hw : 1 ≤ w) (h : 10 ^ w ≤ v) : encNumField .reject v w = .error .valueTooLarge := by
  have hl := (dec_length_le v w hw).not.2 (by omega)
  simp [encNumField, hl]

/-- A decimal digit is a digit. -/
theorem isDigit_digit {n} (h : n < 10) : isDigit (digit n) = true := by
  interval_cases n <;> decide

/-- A decimal digit is neither 0x00 nor whitespace, and carries its value. -/
theorem digit_facts (n) (h : n < 10) : digit n ≠ 0 ∧ isWS (digit n) = false ∧ (digit n).toNat - 0x30 = n := by
  interval_cases n <;> decide

/-- The value of a digit string with one more digit. -/
theorem digitsValue_append (t : Bytes) (b : Byte) : digitsValue (t ++ [b]) = digitsValue t * 10 + (b.toNat - 0x30) := by
  simp [digitsValue]

/-- The positional sum of a digit string with one more digit. -/
theorem digitsSum_append (t : Bytes) (b : Byte) : digitsSum (t ++ [b]) = digitsSum t * 10 + (b.toNat - 0x30) := by
  unfold digitsSum
  simp only [List.length_append, List.length_singleton, List.range_succ, List.map_append, List.sum_append, List.map_singleton, List.sum_singleton]
  congr 1
  · rw [← List.sum_map_mul_right]
    congr 1
    apply List.map_congr_left
    intro i hi
    simp at hi
    simp [List.getElem?_append_left hi]
    have : t.length - i = (t.length - 1 - i) + 1 := by omega
    rw [this, Nat.pow_succ]; ring
  · simp

/-! ### Text fields -/

/-- `clean` leaves a text without 0x00 and without whitespace at its ends, and drops zeros behind it. -/
theorem clean_self {t : Bytes} (h0 : 0 ∉ t) (h1 : ∀ b, t.head? = some b → isWS b = false) (h2 : ∀ b, t.getLast? = some b → isWS b = false) (n : Nat) : clean (t ++ List.replicate n 0) = t := by
  have hf : (t ++ List.replicate n 0).filter (· != 0) = t := by
    rw [List.filter_append]
    have e1 : t.filter (· != 0) = t := by
      rw [List.filter_eq_self]; intro a ha; simp; intro e; apply h0; rw [← show a = 0 from e]; exact ha
    rw [e1]; simp
  have hd : ∀ l : Bytes, (∀ b, l.head? = some b → isWS b = false) → l.dropWhile isWS = l := by
    intro l hl
    cases l with
    | nil => rfl
    | cons a l => simp [List.dropWhile, hl a rfl]
  unfold clean
  rw [hf, hd t h1, hd t.reverse (by simpa using h2)]; simp

/-- ENC_TEXT is a prefix of the padded text. -/
theorem encTextField_eq (t : Bytes) (w : Nat) (pad : Byte) : encTextField t w pad = (t ++ List.replicate w pad).take w := by
  unfold encTextField
  split
  · simp [List.take_append_of_le_length, *]
  · rename_i h
    simp [List.take_append, List.take_of_length_le (show t.length ≤ w by omega)]

/-- ENC_TEXT has the width asked for. -/
theorem length_encTextField (t : Bytes) (w : Nat) (pad : Byte) : (encTextField t w pad).length = w := by
  rw [encTextField_eq]; simp

/-! ### Frames -/

/-- The length field from its two bytes. -/
theorem rd16_eq {f : Bytes} {n i : Nat} (h0 : (byteAt f i).toNat = n % 256) (h1 : (byteAt f (i+1)).toNat = n / 256) : rd16 f i = n := by
  simp only [rd16, h0, h1]; omega

/-- A built frame, laid out. -/
theorem buildFrameBytes_shape {p tid ts jc payload f} (h : buildFrameBytes p tid ts jc payload = .ok f) :
   ts.length = 14 ∧ payload.length ≤ 65535 ∧ ∃ body : Bytes, body = p.stx :: (encTextField tid 16 0 ++ (ts ++ (jc :: 0 :: (le16 payload.length ++ (payload ++ [p.etx]))))) ∧
    f = body ++ [xorBytes body] := by
  unfold buildFrameBytes at h
  split at h
  · simp at h
  · split at h
    · simp at h
    · refine ⟨by tauto, by omega, _, rfl, ?_⟩
      have := Except.ok.inj h
      rw [← this]; simp

/-- Every byte of a built frame, by offset. -/
structure FrameFacts (p : Params) (tid ts : Bytes) (jc : Byte) (payload f : Bytes) : Prop where
  len : f.length = 37 + payload.length
  le : payload.length ≤ 65535
  b0 : byteAt f 0 = p.stx
  tid : slice f 1 17 = encTextField tid 16 0
  ts : slice f 17 31 = ts
  jc : byteAt f 31 = jc
  rc : byteAt f 32 = 0
  l0 : (byteAt f 33).toNat = payload.length % 256
  l1 : (byteAt f 34).toNat = payload.length / 256
  pay : slice f 35 (35 + payload.length) = payload
  etx : byteAt f (35 + payload.length) = p.etx
  bcc : byteAt f (36 + payload.length) = xorBytes (f.take (36 + payload.length))

/-- What a builder answers has every byte in its place. -/
theorem buildFrameBytes_facts {p tid ts jc payload f} (h : buildFrameBytes p tid ts jc payload = .ok f) : FrameFacts p tid ts jc payload f := by
  obtain ⟨hts, hl, body, hb, rfl⟩ := buildFrameBytes_shape h
  have he := length_encTextField tid 16 0
  generalize hE : encTextField tid 16 0 = E at *
  have hbl : body.length = 36 + payload.length := by rw [hb]; simp [he, hts]; omega
  have e33 : ∀ k, byteAt (body ++ [xorBytes body]) (33 + k) = byteAt (le16 payload.length ++ (payload ++ [p.etx]) ++ [xorBytes body]) k := by
    intro k
    have : body ++ [xorBytes body] = ((p.stx :: (E ++ (ts ++ [jc, 0]))) ++ (le16 payload.length ++ (payload ++ [p.etx]) ++ [xorBytes body])) := by
      rw [hb]; simp
    rw [this, byteAt_append_right (by simp [he, hts])]
    congr 1; simp [he, hts]
  have d35 : (body ++ [xorBytes body]).drop 35 = payload ++ [p.etx] ++ [xorBytes body] := by
    have : body ++ [xorBytes body] = ((p.stx :: (E ++ (ts ++ [jc, 0] ++ le16 payload.length))) ++ (payload ++ [p.etx] ++ [xorBytes body])) := by
      rw [hb]; simp
    rw [this, List.drop_left']
    simp [he, hts]
  have d17 : (body ++ [xorBytes body]).drop 17 = ts ++ (jc :: 0 :: (le16 payload.length ++ (payload ++ [p.etx])) ++ [xorBytes body]) := by
    have : body ++ [xorBytes body] = ((p.stx :: E)) ++ ( ts ++ (jc :: 0 :: (le16 payload.length ++ (payload ++ [p.etx])) ++ [xorBytes body])) := by
      rw [hb]; simp
    rw [this, List.drop_left']
    simp [he]
  have d1 : (body ++ [xorBytes body]).drop 1 = E ++ ( ts ++ (jc :: 0 :: (le16 payload.length ++ (payload ++ [p.etx])) ++ [xorBytes body])) := by
      rw [hb]; simp
  have d31 : ∀ k, byteAt (body ++ [xorBytes body]) (31 + k) = byteAt (jc :: 0 :: (le16 payload.length ++ (payload ++ [p.etx])) ++ [xorBytes body]) k := by
    intro k
    rw [show 31 + k = 17 + (14 + k) by omega, ← byteAt_drop, d17, byteAt_append_right (by omega)]
    congr 1; omega
  exact {
    len := by simp [hbl]; omega
    le := hl
    b0 := by rw [hb]; rfl
    tid := by rw [slice_eq, d1, hE]; exact List.take_left' (by omega)
    ts := by rw [slice_eq, d17, List.take_left' (by omega)]
    jc := d31 0
    rc := d31 1
    l0 := by rw [e33 0]; simp [le16]
    l1 := by rw [e33 1]; simp [le16]; omega
    pay := by rw [slice_eq, d35, show 35 + payload.length - 35 = payload.length by omega, List.append_assoc, List.take_left]
    etx := by rw [← byteAt_drop, d35]; simp [byteAt]
    bcc := by
      rw [byteAt_append_right (by omega), ← hbl]; simp }

/-- When a builder answers which error, and when a frame. -/
theorem buildFrameBytes_cases {p tid ts jc payload} : (ts.length ≠ 14 → buildFrameBytes p tid ts jc payload = .error .badOperand) ∧
   (ts.length = 14 → 65535 < payload.length → buildFrameBytes p tid ts jc payload = .error .payloadTooLong) ∧
   (ts.length = 14 → payload.length ≤ 65535 → ∃ f, buildFrameBytes p tid ts jc payload = .ok f) := by
  refine ⟨?_, ?_, ?_⟩
  · intro h; simp [buildFrameBytes, h]
  · intro h h1; simp [buildFrameBytes, h, h1]
  · intro h h1; simp [buildFrameBytes, h, Nat.not_lt.2 h1]

/-! ### The scanner -/

/-- The scanner on noise followed by a candidate. -/
theorem scanWindow_append {p : Params} {g c : Bytes} (hg : p.stx ∉ g) (hc : c.head? = some p.stx) :
   scanWindow p (g ++ c) = (if c.length < 35 then ⟨.incomplete, g.length, 0⟩ else
     if 37 + rd16 c 33 ≤ c.length ∧ byteAt c (35 + rd16 c 33) = p.etx then ⟨.complete, g.length, 37 + rd16 c 33⟩ else ⟨.incomplete, g.length, 0⟩) := by
  cases c with
  | nil => simp at hc
  | cons x c =>
    simp at hc; subst hc
    have hf := find_append_cons hg c
    unfold scanWindow
    rw [hf]
    have e1 : (g ++ p.stx :: c).length - g.length = (p.stx :: c).length := by simp
    have e2 : rd16 (g ++ p.stx :: c) (g.length + 33) = rd16 (p.stx :: c) 33 := by
      rw [rd16_append_right (by omega)]; congr 1; omega
    simp only [e1, e2]
    have e3 : byteAt (g ++ p.stx :: c) (g.length + 35 + rd16 (p.stx :: c) 33) = byteAt (p.stx :: c) (35 + rd16 (p.stx :: c) 33) := by
      rw [byteAt_append_right (by omega)]; congr 1; omega
    rw [e3]

/-- The scanner on a window without a start sentinel. -/
theorem scanWindow_none {p : Params} {w : Bytes} (hg : p.stx ∉ w) : scanWindow p w = ⟨.noFrame, 0, 0⟩ := by
  simp [scanWindow, find_eq_none_iff.2 hg]

/-- What a found candidate says of its window. -/
theorem scanWindow_some {p : Params} {w : Bytes} {st : ScanStatus} {i n : Nat} (h : scanWindow p w = ⟨st, i, n⟩) (hs : st ≠ .noFrame) :
  ∃ g c, w = g ++ c ∧ g.length = i ∧ p.stx ∉ g ∧ c.head? = some p.stx := by
  cases hf : find w p.stx with
  | none => simp [scanWindow, hf] at h; exact absurd h.1.symm hs
  | some k =>
    obtain ⟨g, c, rfl, hk, hg⟩ := find_eq_some hf
    refine ⟨g, p.stx :: c, rfl, ?_, hg, rfl⟩
    rw [scanWindow_append hg rfl] at h
    split_ifs at h <;> simp at h <;> exact h.2.1

/-- Byte 0 of a string that is not empty is its head. -/
theorem head?_of_byteAt {f : Bytes} {b : Byte} (h : byteAt f 0 = b) (hl : 0 < f.length) : f.head? = some b := by
  cases f with
  | nil => simp at hl
  | cons x f => simpa [byteAt] using h

/-! ### Layouts -/

/-- Field `j + 1` of a cut payload is the slice at the sum of the widths before it. -/
theorem fieldAt_splitFields {ws : List Nat} {s : Bytes} {j : Nat} (h : j < ws.length) :
    fieldAt (splitFields ws s) (j + 1) = fieldSlice s ws j := by
  simp only [fieldAt, Nat.add_sub_cancel]
  induction ws generalizing s j with
  | nil => simp at h
  | cons w ws ih =>
    cases j with
    | zero => simp [splitFields, fieldSlice]
    | succ j =>
      have := ih (s := s.drop w) (j := j) (by simpa using h)
      simpa [splitFields, fieldSlice, List.drop_drop] using this

/-- What the layout reader answers. -/
theorem fields_eq (payload : Bytes) (ws : List Nat) :
    (payload.length < ws.sum → fields payload ws = none) ∧
    (ws.sum ≤ payload.length → fields payload ws = some (splitFields ws payload)) := by
  refine ⟨fun h => by simp [fields, h], fun h => by simp [fields, Nat.not_lt.2 h]⟩

/-- The numeric fields of a builder, where each fits or is truncated. -/
theorem encNumFields_ok {policy : OverflowPolicy} {l : List (Nat × Nat)}
    (h : ∀ x ∈ l, 1 ≤ x.2 ∧ (policy = .truncateHigh ∨ x.1 < 10 ^ x.2)) :
    encNumFields policy l = .ok (l.flatMap (fun x => decimalField x.1 x.2)) := by
  induction l with
  | nil => rfl
  | cons a l ih =>
    obtain ⟨v, w⟩ := a
    have ha := h (v, w) (by simp)
    have e : encNumField policy v w = .ok (decimalField v w) := by
      rcases ha.2 with hp | hv
      · rw [hp]
        exact encNumField_truncateHigh v w ha.1
      · exact encNumField_of_fits policy v w ha.1 hv
    simp [encNumFields, e, ih (fun x hx => h x (by simp [hx]))]

/-- Under REJECT one numeric field that does not fit stops the builder. -/
theorem encNumFields_reject {l : List (Nat × Nat)} (hw : ∀ x ∈ l, 1 ≤ x.2) (h : ∃ x ∈ l, 10 ^ x.2 ≤ x.1) :
    encNumFields .reject l = .error .valueTooLarge := by
  induction l with
  | nil => simp at h
  | cons a l ih =>
    obtain ⟨v, w⟩ := a
    have hv := hw (v, w) (by simp)
    by_cases hf : v < 10 ^ w
    · have : ∃ x ∈ l, 10 ^ x.2 ≤ x.1 := by
        obtain ⟨x, hx, hle⟩ := h
        rcases List.mem_cons.1 hx with rfl | hx
        · simp only at hle
          omega
        · exact ⟨x, hx, hle⟩
      simp [encNumFields, encNumField_of_fits _ v w hv hf, ih (fun x hx => hw x (by simp [hx])) this]
    · simp [encNumFields, encNumField_reject v w hv (by omega)]

end Sys2Proof.Machine
end

