-- ==== Sys2Proof/Laws/Config.lean ====
section
/-! SUPPORT. What a well-formed configuration says, one constraint of spec/00_scope.md R8 and R10 at a time. -/

namespace Sys2Proof

variable (c : Cfg)

/-- All checks of `Params.wellFormed` at once. -/
theorem Cfg.checks : c.params.handshakeDistinct = true ∧ c.params.jobCodesOk = true ∧ c.params.txTypesOk = true ∧
    c.params.countsOk = true ∧ c.params.capOk = true ∧ c.params.cancelWidthsOk = true ∧
    c.params.codeWidthsOk = true := by
  have h := c.wf
  simp only [Params.wellFormed, Bool.and_eq_true] at h
  tauto

/-- R10: `P_ACK != P_NAK`. -/
theorem Cfg.ack_ne_nak : c.params.ack ≠ c.params.nak := by
  simpa [Params.handshakeDistinct] using c.checks.1

/-- R10: the six job codes are pairwise distinct. -/
theorem Cfg.jobCodes_nodup : c.params.jobCodes.Nodup := by
  have h := c.checks.2.1
  simp only [Params.jobCodesOk, Bool.and_eq_true, decide_eq_true_eq] at h
  exact h.2

/-- R10: `P_TT_APPROVED != P_TT_REJECTED`. -/
theorem Cfg.ttApproved_ne_ttRejected : c.params.ttApproved ≠ c.params.ttRejected := by
  have h := c.checks.2.2.1
  simp only [Params.txTypesOk, Bool.and_eq_true, decide_eq_true_eq] at h
  exact h.2

/-- R8: `P_MAX_ATTEMPTS >= 1`. -/
theorem Cfg.one_le_maxAttempts : 1 ≤ c.params.maxAttempts := by
  have h := c.checks.2.2.2.1
  simp only [Params.countsOk, Bool.and_eq_true, decide_eq_true_eq] at h
  exact h.1.1

/-- R8: `P_ACK_TIMEOUT >= 1`. -/
theorem Cfg.one_le_ackTimeout : 1 ≤ c.params.ackTimeout := by
  have h := c.checks.2.2.2.1
  simp only [Params.countsOk, Bool.and_eq_true, decide_eq_true_eq] at h
  exact h.1.2

/-- R8: `P_RSP_TIMEOUT >= 1`. -/
theorem Cfg.one_le_rspTimeout : 1 ≤ c.params.rspTimeout := by
  have h := c.checks.2.2.2.1
  simp only [Params.countsOk, Bool.and_eq_true, decide_eq_true_eq] at h
  exact h.2

/-- R8: `P_RXBUF_CAP >= 37`. -/
theorem Cfg.cap_ge : 37 ≤ c.params.rxbufCap := by
  simpa [Params.capOk] using c.checks.2.2.2.2.1

/-- R10: `P_W_APPRNO + P_W_ODATE + P_W_OTIME = 26`. -/
theorem Cfg.cancelWidths_sum : c.params.wApprno + c.params.wOdate + c.params.wOtime = 26 := by
  have h := c.checks.2.2.2.2.2.1
  simp only [Params.cancelWidthsOk, Bool.and_eq_true, decide_eq_true_eq] at h
  exact h.2

/-- R8: `P_ISSUER_CODE_W` and `P_ACQUIRER_CODE_W` are at most 20. -/
theorem Cfg.codeWidths_le : c.params.issuerCodeW ≤ 20 ∧ c.params.acquirerCodeW ≤ 20 := by
  simpa [Params.codeWidthsOk] using c.checks.2.2.2.2.2.2

end Sys2Proof
end

