-- ==== Sys2Proof/Laws/Decode.lean ====
section
/-! SUPPORT. What the decoder does, said once: which opcodes are listed, and that `decodeOperands` and `Instr.operands`
are inverse on well-formed events. -/

namespace Sys2Proof

open Machine

/-! ### Opcodes -/

@[simp] theorem Opcode.ofByte_byte (o : Opcode) : Opcode.ofByte o.byte = some o := by cases o <;> decide

theorem Opcode.byte_of_ofByte {b : Byte} {o : Opcode} (h : Opcode.ofByte b = some o) : o.byte = b := by
  simpa using List.find?_some h

theorem Opcode.ofByte_eq_none {b : Byte} (h : ∀ o : Opcode, o.byte ≠ b) : Opcode.ofByte b = none := by
  cases hb : Opcode.ofByte b with
  | none => rfl
  | some o => exact absurd (Opcode.byte_of_ofByte hb) (h o)

/-- Two listed opcodes with one number are one opcode. -/
theorem Opcode.byte_injective {o o' : Opcode} (h : o.byte = o'.byte) : o = o' := by
  have h1 := Opcode.ofByte_byte o
  rw [h, Opcode.ofByte_byte] at h1
  exact (Option.some.inj h1).symm

/-! ### Optional operands -/

theorem Operand.optBytes?_eq_some {x : Operand} {o : Option Bytes} :
    x.optBytes? = some o ↔ x = o.elim .absent .bytes := by
  cases x <;> cases o <;> simp [Operand.optBytes?]

theorem Operand.optNat?_eq_some {x : Operand} {o : Option Nat} : x.optNat? = some o ↔ x = o.elim .absent .nat := by
  cases x <;> cases o <;> simp [Operand.optNat?]

/-! ### Operands and events -/

/-- What a decoded event says of the operands it was read from. -/
theorem decodeOperands_sound {o : Opcode} {xs : List Operand} {i : Instr} (h : decodeOperands o xs = some i) :
    i.opcode = o ∧ i.operands = xs ∧ i.wellFormed = true := by
  cases o <;> simp only [decodeOperands] at h <;> split at h <;>
    simp only [Option.some.injEq, reduceCtorEq, Option.map_eq_some_iff, Operand.optBytes?_eq_some,
      Operand.optNat?_eq_some, Option.ite_none_right_eq_some] at h
  all_goals first
    | (subst h; simp [Instr.opcode, Instr.operands, Instr.wellFormed])
    | (obtain ⟨h1, h2⟩ := h; subst h2; simp [Instr.opcode, Instr.operands, Instr.wellFormed, h1])
    | (obtain ⟨_, h1, h2⟩ := h; subst h1 h2; simp [Instr.opcode, Instr.operands, Instr.wellFormed])

/-- A well-formed event is read back from its operands. -/
theorem decodeOperands_operands {i : Instr} (h : i.wellFormed = true) : decodeOperands i.opcode i.operands = some i := by
  cases i <;>
    simp_all [decodeOperands, Instr.opcode, Instr.operands, Instr.wellFormed, Operand.optBytes?_eq_some,
      Operand.optNat?_eq_some]

/-- Everything a successful decoding says. -/
theorem decode_eq_ok {r : EventRecord} {i : Instr} (h : decode r = .ok i) : encode i = r ∧ i.wellFormed = true := by
  unfold decode at h
  split at h
  · simp at h
  · rename_i o ho
    split at h
    · simp at h
    · rename_i j hj
      obtain ⟨h1, h2, h3⟩ := decodeOperands_sound hj
      obtain rfl : j = i := by simpa using h
      exact ⟨by simp [encode, h1, h2, Opcode.byte_of_ofByte ho], h3⟩

/-! ### The byte serialisation -/

/-- A natural below 2^32 is read back from its four bytes. -/
theorem readNat32_le32 {n : Nat} (h : n < 4294967296) (r : Bytes) : readNat32 (le32 n ++ r) = .ok (n, r) := by
  simp [readNat32, le32]; omega

/-- What a read natural says of the bytes. -/
theorem readNat32_sound {bs : Bytes} {n r} (h : readNat32 bs = .ok (n, r)) : bs = le32 n ++ r ∧ n < 4294967296 := by
  unfold readNat32 at h
  split at h
  · rename_i b0 b1 b2 b3 r'
    simp at h
    obtain ⟨rfl, rfl⟩ := h
    have h0 := b0.isLt; have h1 := b1.isLt; have h2 := b2.isLt; have h3 := b3.isLt
    refine ⟨?_, by omega⟩
    simp only [le32, List.cons_append, List.nil_append, List.cons.injEq, and_true]
    refine ⟨?_, ?_, ?_, ?_⟩ <;> apply BitVec.eq_of_toNat_eq <;> simp <;> omega
  · simp at h

/-- A byte string is read back from its length and bytes. -/
theorem readString_ok {s : Bytes} (h : s.length < 4294967296) (r : Bytes) : readString (le32 s.length ++ s ++ r) = .ok (s, r) := by
  unfold readString; rw [List.append_assoc, readNat32_le32 h]; simp

/-- What a read byte string says of the bytes. -/
theorem readString_sound {bs s r : Bytes} (h : readString bs = .ok (s, r)) : bs = le32 s.length ++ s ++ r ∧ s.length < 4294967296 := by
  unfold readString at h
  split at h
  · simp at h
  · rename_i n rest hn
    obtain ⟨rfl, hlt⟩ := readNat32_sound hn
    split at h
    · simp at h; obtain ⟨rfl, rfl⟩ := h
      have : (rest.take n).length = n := by simp; omega
      rw [this]; simp; exact hlt
    · simp at h

/-- A table is read back from its byte. -/
theorem Table.ofByte_byte (t : Table) : Table.ofByte t.byte = some t := by cases t <;> decide

/-- What a read table says of the byte. -/
theorem Table.byte_of_ofByte {b : Byte} {t : Table} (h : Table.ofByte b = some t) : b = t.byte := by
  unfold Table.ofByte at h; split_ifs at h <;> cases h <;> assumption

/-! ### Operands of a type -/

theorem Operand.hasType_bytes {x : Operand} : Operand.hasType .bytes x = true ↔ ∃ s, x = .bytes s := by
  cases x <;> simp [Operand.hasType]

theorem Operand.hasType_bytesN {x : Operand} : Operand.hasType .bytesN x = true ↔ ∃ s, x = .bytes s := by
  cases x <;> simp [Operand.hasType]

theorem Operand.hasType_byte {x : Operand} : Operand.hasType .byte x = true ↔ ∃ b, x = .byte b := by
  cases x <;> simp [Operand.hasType]

theorem Operand.hasType_nat {x : Operand} : Operand.hasType .nat x = true ↔ ∃ n, x = .nat n := by
  cases x <;> simp [Operand.hasType]

theorem Operand.hasType_width {x : Operand} :
    Operand.hasType .width x = true ↔ ∃ n, x = .nat n ∧ widthOk n = true := by
  cases x <;> simp [Operand.hasType, widthOk]

theorem Operand.hasType_bool {x : Operand} : Operand.hasType .bool x = true ↔ ∃ b, x = .bool b := by
  cases x <;> simp [Operand.hasType]

theorem Operand.hasType_table {x : Operand} : Operand.hasType .table x = true ↔ ∃ t, x = .table t := by
  cases x <;> simp [Operand.hasType]

theorem Operand.hasType_optBytes {x : Operand} :
    Operand.hasType .optBytes x = true ↔ ∃ o : Option Bytes, x = o.elim .absent .bytes := by
  cases x <;> simp [Operand.hasType, Option.exists]

theorem Operand.hasType_optNat {x : Operand} :
    Operand.hasType .optNat x = true ↔ ∃ o : Option Nat, x = o.elim .absent .nat := by
  cases x <;> simp [Operand.hasType, Option.exists]

@[simp] theorem conforms_nil {xs : List Operand} : conforms [] xs = true ↔ xs = [] := by
  cases xs <;> simp [conforms]

@[simp] theorem conforms_cons {t : OperandType} {ts : List OperandType} {xs : List Operand} :
    conforms (t :: ts) xs = true ↔ ∃ x ys, xs = x :: ys ∧ Operand.hasType t x = true ∧ conforms ts ys = true := by
  cases xs <;> simp [conforms]

end Sys2Proof
end

