-- ==== Sys2Proof/Laws/State.lean ====
section
/-! SUPPORT. One lemma per field for each update of the state: what a log append, a delivery and a send procedure leave in
each field. No later proof unfolds a record update. -/

namespace Sys2Proof.Machine

variable (s : State)

/-- A success is a result record with its output. -/
@[simp] theorem State.succeed_eq (op : Byte) (out : Out) : s.succeed op out = s.result ⟨op, .ok, some out⟩ := rfl

/-- An error is a result record without an output. -/
@[simp] theorem State.raiseError_eq (op : Byte) (code : ResultCode) : s.raiseError op code = s.result ⟨op, code, none⟩ := rfl

/-- An illegal opcode is a result record with ERR_ILLEGAL_OPCODE. -/
@[simp] theorem State.takeIllegalOpcode_eq (op : Byte) :
    s.takeIllegalOpcode op = s.result ⟨op, .illegalOpcode, none⟩ := rfl

/-- An answered output is a result record. -/
@[simp] theorem State.answer_ok (op : Byte) (out : Out) : s.answer op (.ok out) = s.result ⟨op, .ok, some out⟩ := rfl

/-- An answered error is a result record. -/
@[simp] theorem State.answer_error (op : Byte) (code : ResultCode) :
    s.answer op (.error code) = s.result ⟨op, code, none⟩ := rfl

/-! ### txEmit -/

@[simp] theorem State.txEmit_connected (t : Bytes) : (s.txEmit t).connected = s.connected := rfl
@[simp] theorem State.txEmit_opening (t : Bytes) : (s.txEmit t).opening = s.opening := rfl
@[simp] theorem State.txEmit_phase (t : Bytes) : (s.txEmit t).phase = s.phase := rfl
@[simp] theorem State.txEmit_attempt (t : Bytes) : (s.txEmit t).attempt = s.attempt := rfl
@[simp] theorem State.txEmit_expect (t : Bytes) : (s.txEmit t).expect = s.expect := rfl
@[simp] theorem State.txEmit_txframe (t : Bytes) : (s.txEmit t).txframe = s.txframe := rfl
@[simp] theorem State.txEmit_timer (t : Bytes) : (s.txEmit t).timer = s.timer := rfl
@[simp] theorem State.txEmit_rxbuf (t : Bytes) : (s.txEmit t).rxbuf = s.rxbuf := rfl
@[simp] theorem State.txEmit_rxOverflow (t : Bytes) : (s.txEmit t).rxOverflow = s.rxOverflow := rfl
@[simp] theorem State.txEmit_txlog (t : Bytes) : (s.txEmit t).txlog = s.txlog ++ [t] := rfl
@[simp] theorem State.txEmit_chanreq (t : Bytes) : (s.txEmit t).chanreq = s.chanreq := rfl
@[simp] theorem State.txEmit_notes (t : Bytes) : (s.txEmit t).notes = s.notes := rfl
@[simp] theorem State.txEmit_results (t : Bytes) : (s.txEmit t).results = s.results := rfl
@[simp] theorem State.txEmit_trace (t : Bytes) : (s.txEmit t).trace = s.trace ++ [.tx t] := rfl
@[simp] theorem State.txEmit_input (t : Bytes) : (s.txEmit t).input = s.input := rfl
@[simp] theorem State.txEmit_cfg (t : Bytes) : (s.txEmit t).cfg = s.cfg := rfl
@[simp] theorem State.txEmit_params (t : Bytes) : (s.txEmit t).params = s.params := rfl

/-! ### request -/

@[simp] theorem State.request_connected (r : ChanReq) : (s.request r).connected = s.connected := rfl
@[simp] theorem State.request_opening (r : ChanReq) : (s.request r).opening = s.opening := rfl
@[simp] theorem State.request_phase (r : ChanReq) : (s.request r).phase = s.phase := rfl
@[simp] theorem State.request_attempt (r : ChanReq) : (s.request r).attempt = s.attempt := rfl
@[simp] theorem State.request_expect (r : ChanReq) : (s.request r).expect = s.expect := rfl
@[simp] theorem State.request_txframe (r : ChanReq) : (s.request r).txframe = s.txframe := rfl
@[simp] theorem State.request_timer (r : ChanReq) : (s.request r).timer = s.timer := rfl
@[simp] theorem State.request_rxbuf (r : ChanReq) : (s.request r).rxbuf = s.rxbuf := rfl
@[simp] theorem State.request_rxOverflow (r : ChanReq) : (s.request r).rxOverflow = s.rxOverflow := rfl
@[simp] theorem State.request_txlog (r : ChanReq) : (s.request r).txlog = s.txlog := rfl
@[simp] theorem State.request_chanreq (r : ChanReq) : (s.request r).chanreq = s.chanreq ++ [r] := rfl
@[simp] theorem State.request_notes (r : ChanReq) : (s.request r).notes = s.notes := rfl
@[simp] theorem State.request_results (r : ChanReq) : (s.request r).results = s.results := rfl
@[simp] theorem State.request_trace (r : ChanReq) : (s.request r).trace = s.trace ++ [.chan r] := rfl
@[simp] theorem State.request_input (r : ChanReq) : (s.request r).input = s.input := rfl
@[simp] theorem State.request_cfg (r : ChanReq) : (s.request r).cfg = s.cfg := rfl
@[simp] theorem State.request_params (r : ChanReq) : (s.request r).params = s.params := rfl

/-! ### notify -/

@[simp] theorem State.notify_connected (n : Notification) : (s.notify n).connected = s.connected := rfl
@[simp] theorem State.notify_opening (n : Notification) : (s.notify n).opening = s.opening := rfl
@[simp] theorem State.notify_phase (n : Notification) : (s.notify n).phase = s.phase := rfl
@[simp] theorem State.notify_attempt (n : Notification) : (s.notify n).attempt = s.attempt := rfl
@[simp] theorem State.notify_expect (n : Notification) : (s.notify n).expect = s.expect := rfl
@[simp] theorem State.notify_txframe (n : Notification) : (s.notify n).txframe = s.txframe := rfl
@[simp] theorem State.notify_timer (n : Notification) : (s.notify n).timer = s.timer := rfl
@[simp] theorem State.notify_rxbuf (n : Notification) : (s.notify n).rxbuf = s.rxbuf := rfl
@[simp] theorem State.notify_rxOverflow (n : Notification) : (s.notify n).rxOverflow = s.rxOverflow := rfl
@[simp] theorem State.notify_txlog (n : Notification) : (s.notify n).txlog = s.txlog := rfl
@[simp] theorem State.notify_chanreq (n : Notification) : (s.notify n).chanreq = s.chanreq := rfl
@[simp] theorem State.notify_notes (n : Notification) : (s.notify n).notes = s.notes ++ [n] := rfl
@[simp] theorem State.notify_results (n : Notification) : (s.notify n).results = s.results := rfl
@[simp] theorem State.notify_trace (n : Notification) : (s.notify n).trace = s.trace ++ [.note n] := rfl
@[simp] theorem State.notify_input (n : Notification) : (s.notify n).input = s.input := rfl
@[simp] theorem State.notify_cfg (n : Notification) : (s.notify n).cfg = s.cfg := rfl
@[simp] theorem State.notify_params (n : Notification) : (s.notify n).params = s.params := rfl

/-! ### result -/

@[simp] theorem State.result_connected (r : ResultRec) : (s.result r).connected = s.connected := rfl
@[simp] theorem State.result_opening (r : ResultRec) : (s.result r).opening = s.opening := rfl
@[simp] theorem State.result_phase (r : ResultRec) : (s.result r).phase = s.phase := rfl
@[simp] theorem State.result_attempt (r : ResultRec) : (s.result r).attempt = s.attempt := rfl
@[simp] theorem State.result_expect (r : ResultRec) : (s.result r).expect = s.expect := rfl
@[simp] theorem State.result_txframe (r : ResultRec) : (s.result r).txframe = s.txframe := rfl
@[simp] theorem State.result_timer (r : ResultRec) : (s.result r).timer = s.timer := rfl
@[simp] theorem State.result_rxbuf (r : ResultRec) : (s.result r).rxbuf = s.rxbuf := rfl
@[simp] theorem State.result_rxOverflow (r : ResultRec) : (s.result r).rxOverflow = s.rxOverflow := rfl
@[simp] theorem State.result_txlog (r : ResultRec) : (s.result r).txlog = s.txlog := rfl
@[simp] theorem State.result_chanreq (r : ResultRec) : (s.result r).chanreq = s.chanreq := rfl
@[simp] theorem State.result_notes (r : ResultRec) : (s.result r).notes = s.notes := rfl
@[simp] theorem State.result_results (r : ResultRec) : (s.result r).results = s.results ++ [r] := rfl
@[simp] theorem State.result_trace (r : ResultRec) : (s.result r).trace = s.trace ++ [.result r] := rfl
@[simp] theorem State.result_input (r : ResultRec) : (s.result r).input = s.input := rfl
@[simp] theorem State.result_cfg (r : ResultRec) : (s.result r).cfg = s.cfg := rfl
@[simp] theorem State.result_params (r : ResultRec) : (s.result r).params = s.params := rfl

/-! ### takeRecord -/

@[simp] theorem State.takeRecord_connected (rest : List EventRecord) :
    (s.takeRecord rest).connected = s.connected := rfl
@[simp] theorem State.takeRecord_opening (rest : List EventRecord) : (s.takeRecord rest).opening = s.opening := rfl
@[simp] theorem State.takeRecord_phase (rest : List EventRecord) : (s.takeRecord rest).phase = s.phase := rfl
@[simp] theorem State.takeRecord_attempt (rest : List EventRecord) : (s.takeRecord rest).attempt = s.attempt := rfl
@[simp] theorem State.takeRecord_expect (rest : List EventRecord) : (s.takeRecord rest).expect = s.expect := rfl
@[simp] theorem State.takeRecord_txframe (rest : List EventRecord) : (s.takeRecord rest).txframe = s.txframe := rfl
@[simp] theorem State.takeRecord_timer (rest : List EventRecord) : (s.takeRecord rest).timer = s.timer := rfl
@[simp] theorem State.takeRecord_rxbuf (rest : List EventRecord) : (s.takeRecord rest).rxbuf = s.rxbuf := rfl
@[simp] theorem State.takeRecord_rxOverflow (rest : List EventRecord) :
    (s.takeRecord rest).rxOverflow = s.rxOverflow := rfl
@[simp] theorem State.takeRecord_txlog (rest : List EventRecord) : (s.takeRecord rest).txlog = s.txlog := rfl
@[simp] theorem State.takeRecord_chanreq (rest : List EventRecord) : (s.takeRecord rest).chanreq = s.chanreq := rfl
@[simp] theorem State.takeRecord_notes (rest : List EventRecord) : (s.takeRecord rest).notes = s.notes := rfl
@[simp] theorem State.takeRecord_results (rest : List EventRecord) : (s.takeRecord rest).results = s.results := rfl
@[simp] theorem State.takeRecord_trace (rest : List EventRecord) : (s.takeRecord rest).trace = s.trace := rfl
@[simp] theorem State.takeRecord_input (rest : List EventRecord) : (s.takeRecord rest).input = rest := rfl
@[simp] theorem State.takeRecord_cfg (rest : List EventRecord) : (s.takeRecord rest).cfg = s.cfg := rfl
@[simp] theorem State.takeRecord_params (rest : List EventRecord) : (s.takeRecord rest).params = s.params := rfl

/-! ### deliver -/

@[simp] theorem State.deliver_connected (r : EventRecord) : (s.deliver r).connected = s.connected := rfl
@[simp] theorem State.deliver_opening (r : EventRecord) : (s.deliver r).opening = s.opening := rfl
@[simp] theorem State.deliver_phase (r : EventRecord) : (s.deliver r).phase = s.phase := rfl
@[simp] theorem State.deliver_attempt (r : EventRecord) : (s.deliver r).attempt = s.attempt := rfl
@[simp] theorem State.deliver_expect (r : EventRecord) : (s.deliver r).expect = s.expect := rfl
@[simp] theorem State.deliver_txframe (r : EventRecord) : (s.deliver r).txframe = s.txframe := rfl
@[simp] theorem State.deliver_timer (r : EventRecord) : (s.deliver r).timer = s.timer := rfl
@[simp] theorem State.deliver_rxbuf (r : EventRecord) : (s.deliver r).rxbuf = s.rxbuf := rfl
@[simp] theorem State.deliver_rxOverflow (r : EventRecord) : (s.deliver r).rxOverflow = s.rxOverflow := rfl
@[simp] theorem State.deliver_txlog (r : EventRecord) : (s.deliver r).txlog = s.txlog := rfl
@[simp] theorem State.deliver_chanreq (r : EventRecord) : (s.deliver r).chanreq = s.chanreq := rfl
@[simp] theorem State.deliver_notes (r : EventRecord) : (s.deliver r).notes = s.notes := rfl
@[simp] theorem State.deliver_results (r : EventRecord) : (s.deliver r).results = s.results := rfl
@[simp] theorem State.deliver_trace (r : EventRecord) : (s.deliver r).trace = s.trace := rfl
@[simp] theorem State.deliver_input (r : EventRecord) : (s.deliver r).input = r :: s.input := rfl
@[simp] theorem State.deliver_cfg (r : EventRecord) : (s.deliver r).cfg = s.cfg := rfl
@[simp] theorem State.deliver_params (r : EventRecord) : (s.deliver r).params = s.params := rfl

/-! ### writeFrame -/

@[simp] theorem State.writeFrame_connected : (s.writeFrame).connected = s.connected := rfl
@[simp] theorem State.writeFrame_opening : (s.writeFrame).opening = s.opening := rfl
@[simp] theorem State.writeFrame_phase : (s.writeFrame).phase = .txDrain := rfl
@[simp] theorem State.writeFrame_attempt : (s.writeFrame).attempt = s.attempt := rfl
@[simp] theorem State.writeFrame_expect : (s.writeFrame).expect = s.expect := rfl
@[simp] theorem State.writeFrame_txframe : (s.writeFrame).txframe = s.txframe := rfl
@[simp] theorem State.writeFrame_timer : (s.writeFrame).timer = 0 := rfl
@[simp] theorem State.writeFrame_rxbuf : (s.writeFrame).rxbuf = s.rxbuf := rfl
@[simp] theorem State.writeFrame_rxOverflow : (s.writeFrame).rxOverflow = s.rxOverflow := rfl
@[simp] theorem State.writeFrame_txlog : (s.writeFrame).txlog = s.txlog ++ [s.txframe] := rfl
@[simp] theorem State.writeFrame_chanreq : (s.writeFrame).chanreq = s.chanreq := rfl
@[simp] theorem State.writeFrame_notes : (s.writeFrame).notes = s.notes := rfl
@[simp] theorem State.writeFrame_results : (s.writeFrame).results = s.results := rfl
@[simp] theorem State.writeFrame_trace : (s.writeFrame).trace = s.trace ++ [.tx s.txframe] := rfl
@[simp] theorem State.writeFrame_input : (s.writeFrame).input = s.input := rfl
@[simp] theorem State.writeFrame_cfg : (s.writeFrame).cfg = s.cfg := rfl
@[simp] theorem State.writeFrame_params : (s.writeFrame).params = s.params := rfl

/-! ### finishSend -/

@[simp] theorem State.finishSend_connected (code : ResultCode) (resp : Option Response) :
    (s.finishSend code resp).connected = s.connected := rfl
@[simp] theorem State.finishSend_opening (code : ResultCode) (resp : Option Response) :
    (s.finishSend code resp).opening = s.opening := rfl
@[simp] theorem State.finishSend_phase (code : ResultCode) (resp : Option Response) :
    (s.finishSend code resp).phase = .idle := rfl
@[simp] theorem State.finishSend_attempt (code : ResultCode) (resp : Option Response) :
    (s.finishSend code resp).attempt = 0 := rfl
@[simp] theorem State.finishSend_expect (code : ResultCode) (resp : Option Response) :
    (s.finishSend code resp).expect = false := rfl
@[simp] theorem State.finishSend_txframe (code : ResultCode) (resp : Option Response) :
    (s.finishSend code resp).txframe = [] := rfl
@[simp] theorem State.finishSend_timer (code : ResultCode) (resp : Option Response) :
    (s.finishSend code resp).timer = 0 := rfl
@[simp] theorem State.finishSend_rxbuf (code : ResultCode) (resp : Option Response) :
    (s.finishSend code resp).rxbuf = s.rxbuf := rfl
@[simp] theorem State.finishSend_rxOverflow (code : ResultCode) (resp : Option Response) :
    (s.finishSend code resp).rxOverflow = s.rxOverflow := rfl
@[simp] theorem State.finishSend_txlog (code : ResultCode) (resp : Option Response) :
    (s.finishSend code resp).txlog = s.txlog := rfl
@[simp] theorem State.finishSend_chanreq (code : ResultCode) (resp : Option Response) :
    (s.finishSend code resp).chanreq = s.chanreq := rfl
@[simp] theorem State.finishSend_notes (code : ResultCode) (resp : Option Response) :
    (s.finishSend code resp).notes = s.notes := rfl
@[simp] theorem State.finishSend_results (code : ResultCode) (resp : Option Response) :
    (s.finishSend code resp).results = s.results ++ [⟨0x32, code, if code = .ok then some (.response resp) else none⟩] := rfl
@[simp] theorem State.finishSend_trace (code : ResultCode) (resp : Option Response) :
    (s.finishSend code resp).trace = s.trace ++ [.result ⟨0x32, code, if code = .ok then some (.response resp) else none⟩] := rfl
@[simp] theorem State.finishSend_input (code : ResultCode) (resp : Option Response) :
    (s.finishSend code resp).input = s.input := rfl
@[simp] theorem State.finishSend_cfg (code : ResultCode) (resp : Option Response) :
    (s.finishSend code resp).cfg = s.cfg := rfl
@[simp] theorem State.finishSend_params (code : ResultCode) (resp : Option Response) :
    (s.finishSend code resp).params = s.params := rfl

/-! ### resync -/

@[simp] theorem State.resync_connected : (s.resync).connected = s.connected := rfl
@[simp] theorem State.resync_opening : (s.resync).opening = s.opening := rfl
@[simp] theorem State.resync_phase : (s.resync).phase = s.phase := rfl
@[simp] theorem State.resync_attempt : (s.resync).attempt = s.attempt := rfl
@[simp] theorem State.resync_expect : (s.resync).expect = s.expect := rfl
@[simp] theorem State.resync_txframe : (s.resync).txframe = s.txframe := rfl
@[simp] theorem State.resync_timer : (s.resync).timer = s.timer := rfl
@[simp] theorem State.resync_rxbuf : (s.resync).rxbuf = slice s.rxbuf 1 s.rxbuf.length := rfl
@[simp] theorem State.resync_rxOverflow : (s.resync).rxOverflow = true := rfl
@[simp] theorem State.resync_txlog : (s.resync).txlog = s.txlog := rfl
@[simp] theorem State.resync_chanreq : (s.resync).chanreq = s.chanreq := rfl
@[simp] theorem State.resync_notes : (s.resync).notes = s.notes := rfl
@[simp] theorem State.resync_results : (s.resync).results = s.results := rfl
@[simp] theorem State.resync_trace : (s.resync).trace = s.trace := rfl
@[simp] theorem State.resync_input : (s.resync).input = s.input := rfl
@[simp] theorem State.resync_cfg : (s.resync).cfg = s.cfg := rfl
@[simp] theorem State.resync_params : (s.resync).params = s.params := rfl

end Sys2Proof.Machine
end

