-- ==== Sys2Proof/Laws/Engine.lean ====
section
/-! SUPPORT. What the shared procedures of the protocol engine can do, said once each: `finishSend`, `retry`, `handshake`,
`dispatch`, and one pass of the reassembly loop. -/

namespace Sys2Proof.Machine

/-! ### Ends of a send, and retries -/

/-- A send that ends with an error. -/
theorem State.finishSend_error (s : State) {code : ResultCode} (h : code ≠ .ok) :
    s.finishSend code none = (s.withResult 0x32 code none).sendIdle := by
  simp [State.finishSend, State.result, State.withResult, State.sendIdle, h]

/-- A send that ends with success. -/
theorem State.finishSend_ok (s : State) (resp : Option Response) :
    s.finishSend .ok resp = (s.withResult 0x32 .ok (some (.response resp))).sendIdle := rfl

/-- `retry` is the next attempt or the end of the send. -/
theorem State.retry_eq (s : State) : s.retry = s.retried := by
  unfold State.retry State.retried
  split
  · rfl
  · exact State.finishSend_error _ (by simp)

/-- Everything `retry` can do. -/
theorem State.retry_cases (s : State) :
    (s.attempt < s.params.maxAttempts ∧ s.retry = State.writeFrame { s with attempt := s.attempt + 1 }) ∨
    (s.params.maxAttempts ≤ s.attempt ∧ s.retry = s.finishSend .maxRetries none) := by
  unfold State.retry
  split
  · exact .inl ⟨‹_›, rfl⟩
  · exact .inr ⟨by omega, rfl⟩

/-- Everything `handshake` can do. -/
theorem State.handshake_cases (s : State) (b : Byte) :
    (s.phase ≠ .ackWait ∧ s.handshake b = s) ∨
    (s.phase = .ackWait ∧ b = s.params.ack ∧ s.expect = true ∧
      s.handshake b = { s with phase := .rspWait, timer := 0 }) ∨
    (s.phase = .ackWait ∧ b = s.params.ack ∧ s.expect = false ∧ s.handshake b = s.finishSend .ok none) ∨
    (s.phase = .ackWait ∧ b ≠ s.params.ack ∧ s.handshake b = s.retry) := by
  unfold State.handshake
  split
  · exact .inl ⟨‹_›, rfl⟩
  · rename_i h
    have h : s.phase = .ackWait := not_not.1 h
    split
    · split
      · exact .inr (.inl ⟨h, ‹_›, ‹_›, rfl⟩)
      · exact .inr (.inr (.inl ⟨h, ‹_›, Bool.eq_false_iff.2 ‹_›, rfl⟩))
    · exact .inr (.inr (.inr ⟨h, ‹_›, rfl⟩))

/-- Everything `dispatch` can do, each case with its guard. -/
theorem State.dispatch_cases (s : State) (f : Bytes) :
    ((parseFrameHdr s.params f).isValid = false ∧ s.dispatch f = s.txEmit [s.params.nak]) ∨
    (((parseFrameHdr s.params f).isValid = true ∧ (parseFrameHdr s.params f).jc = s.params.jcEventRsp) ∧
      s.dispatch f = s.notify (.event f (parseFrameHdr s.params f))) ∨
    (((parseFrameHdr s.params f).isValid = true ∧ (parseFrameHdr s.params f).jc ≠ s.params.jcEventRsp) ∧
      s.phase = .rspWait ∧
      s.dispatch f = (s.txEmit [s.params.ack]).finishSend .ok (some ⟨f, parseFrameHdr s.params f⟩)) ∨
    (((parseFrameHdr s.params f).isValid = true ∧ (parseFrameHdr s.params f).jc ≠ s.params.jcEventRsp ∧
        s.phase ≠ .rspWait) ∧
      s.dispatch f = s.notify (.unexpectedPacket f (parseFrameHdr s.params f))) := by
  unfold State.dispatch
  simp only
  split_ifs with h1 h2 h3
  · exact .inl ⟨by simpa using h1, rfl⟩
  · exact .inr (.inl ⟨⟨by simpa using h1, h2⟩, rfl⟩)
  · exact .inr (.inr (.inl ⟨⟨by simpa using h1, h2⟩, h3, rfl⟩))
  · exact .inr (.inr (.inr ⟨⟨by simpa using h1, h2, h3⟩, rfl⟩))

/-- `dispatch` leaves the buffer and the connection alone. -/
theorem State.dispatch_frame (s : State) (f : Bytes) :
    (s.dispatch f).rxbuf = s.rxbuf ∧ (s.dispatch f).rxOverflow = s.rxOverflow ∧
    (s.dispatch f).connected = s.connected ∧ (s.dispatch f).opening = s.opening ∧
    (s.dispatch f).cfg = s.cfg ∧ (s.dispatch f).input = s.input ∧ (s.dispatch f).chanreq = s.chanreq := by
  obtain ⟨-, h⟩ | ⟨-, h⟩ | ⟨-, -, h⟩ | ⟨-, h⟩ := s.dispatch_cases f <;> simp [h]

/-! ### The scanner and the reassembly loop -/

/-- A complete candidate has at least the 37 bytes of an empty frame, and lies inside the window. -/
theorem scanWindow_complete {p : Params} {w : Bytes} {i n : Nat} (h : scanWindow p w = ⟨.complete, i, n⟩) :
    37 ≤ n ∧ i + n ≤ w.length := by
  unfold scanWindow at h
  split at h
  · simp at h
  · split at h
    · simp at h
    · simp only at h
      split at h <;> simp only [Scan.mk.injEq, reduceCtorEq, false_and, true_and] at h
      omega

/-- What survives every pass of the loop survives the loop. -/
theorem State.reassembleLoop_induct (P : State → Prop) (hbuf : ∀ s b, P s → P { s with rxbuf := b })
    (hover : ∀ s, P s → P { s with rxOverflow := true }) (hdisp : ∀ s f, P s → P (s.dispatch f)) :
    ∀ n s, P s → P (State.reassembleLoop n s) := by
  intro n
  induction n with
  | zero => exact fun _ h => h
  | succ n ih =>
    intro s h
    unfold State.reassembleLoop
    split
    · exact hbuf _ _ h
    · simp only
      split
      · split
        · exact ih _ (hbuf { s with rxbuf := _, rxOverflow := true } _ (hover _ (hbuf _ _ h)))
        · exact hbuf _ _ h
      · exact ih _ (hdisp _ _ (hbuf _ _ h))

/-- `reassemble` keeps what buffer updates, the overflow flag and `dispatch` keep. -/
theorem State.reassemble_induct (P : State → Prop) (hbuf : ∀ s b, P s → P { s with rxbuf := b })
    (hover : ∀ s, P s → P { s with rxOverflow := true }) (hdisp : ∀ s f, P s → P (s.dispatch f)) (s : State)
    (h : P s) : P s.reassemble :=
  State.reassembleLoop_induct P hbuf hover hdisp _ s h

/-- With enough passes the loop leaves a buffer within the cap that is empty or begins with the start sentinel. -/
theorem State.reassembleLoop_rxbuf : ∀ (n : Nat) (s : State), s.rxbuf.length < n →
    (State.reassembleLoop n s).rxbuf.length ≤ s.params.rxbufCap ∧
    ((State.reassembleLoop n s).rxbuf = [] ∨ (State.reassembleLoop n s).rxbuf.head? = some s.params.stx) := by
  intro n
  induction n with
  | zero => intro s h; omega
  | succ n ih =>
    intro s h1
    unfold State.reassembleLoop
    cases hf : find s.rxbuf s.params.stx with
    | none => simp
    | some i =>
      obtain ⟨g, c, hgc, hlen, hg⟩ := find_eq_some hf
      have hl : s.rxbuf.length = i + (c.length + 1) := by rw [hgc]; simp [hlen]
      have hc : slice s.rxbuf i s.rxbuf.length = s.params.stx :: c := by
        rw [slice_length_self, hgc, ← hlen, List.drop_left]
      simp only [hc]
      split
      · split
        · exact ih (State.resync { s with rxbuf := s.params.stx :: c }) (by simp [slice_eq]; omega)
        · rename_i h
          simp only [not_lt] at h
          simp only [List.length_cons] at h
          simp [h]
      · rename_i hs
        simp only [ne_eq, not_not] at hs
        have hp := (scanWindow_complete (i := (scanWindow s.params (s.params.stx :: c)).offset)
          (n := (scanWindow s.params (s.params.stx :: c)).length) (by rw [← hs])).1
        generalize scanWindow s.params (s.params.stx :: c) = r at hp
        have hd := State.dispatch_frame { s with rxbuf := slice (s.params.stx :: c) r.length (s.params.stx :: c).length }
          (slice (s.params.stx :: c) 0 r.length)
        have := ih _ (by rw [hd.1]; simp only [length_slice, List.length_cons]; omega)
        simp only [State.params, hd.2.2.2.2.1] at this
        exact this

/-- Outside the response wait the loop leaves the send and the result log alone. -/
theorem State.reassembleLoop_noWait (n : Nat) (s : State) (h : s.phase ≠ .rspWait) :
    (State.reassembleLoop n s).phase = s.phase ∧ (State.reassembleLoop n s).results = s.results := by
  refine State.reassembleLoop_induct (fun t => t.phase = s.phase ∧ t.results = s.results)
    (fun _ _ h => h) (fun _ h => h) (fun t f ht => ?_) n s ⟨rfl, rfl⟩
  obtain ⟨-, e⟩ | ⟨-, e⟩ | ⟨-, hp, -⟩ | ⟨-, e⟩ := t.dispatch_cases f
  · simpa [e] using ht
  · simpa [e] using ht
  · exact absurd (ht.1 ▸ hp) h
  · simpa [e] using ht

/-- Everything the loop can do to the send in flight: nothing, or end its response wait with a frame out of the buffer. -/
theorem State.reassembleLoop_cases : ∀ (n : Nat) (s : State),
    ((State.reassembleLoop n s).phase = s.phase ∧ (State.reassembleLoop n s).results = s.results) ∨
    State.AnsweredFrom s.rxbuf s (State.reassembleLoop n s) := by
  intro n
  induction n with
  | zero => exact fun s => .inl ⟨rfl, rfl⟩
  | succ n ih =>
    intro s
    -- After a pass that leaves the send alone and keeps a part of the buffer.
    have pass : ∀ u : State, u.phase = s.phase → u.results = s.results → u.params = s.params → u.rxbuf <:+: s.rxbuf →
        ((State.reassembleLoop n u).phase = s.phase ∧ (State.reassembleLoop n u).results = s.results) ∨
        State.AnsweredFrom s.rxbuf s (State.reassembleLoop n u) := by
      intro u hp hr hc hb
      obtain h | ⟨h1, h2, f, hf, h⟩ := ih u
      · exact .inl ⟨h.1.trans hp, h.2.trans hr⟩
      · rw [hc, hr] at h
        exact .inr ⟨hp ▸ h1, h2, f, hf.trans hb, h⟩
    have drop : ∀ (b : Bytes) (k : Nat), slice b k b.length <:+: b := fun b k => by
      rw [slice_length_self]; exact (List.drop_suffix _ _).isInfix
    unfold State.reassembleLoop
    split
    · exact .inl ⟨rfl, rfl⟩
    · rename_i i _
      have hc := drop s.rxbuf i
      generalize slice s.rxbuf i s.rxbuf.length = c at hc
      simp only
      split
      · split
        · exact pass (State.resync { s with rxbuf := c }) rfl rfl rfl ((drop c 1).trans hc)
        · exact .inl ⟨rfl, rfl⟩
      · generalize (scanWindow s.params c).length = k
        have hf : slice c 0 k <:+: s.rxbuf := by
          rw [slice_zero]; exact (List.take_prefix _ _).isInfix.trans hc
        have hr := (drop c k).trans hc
        generalize slice c 0 k = f at hf
        generalize slice c k c.length = r at hr
        obtain ⟨-, e⟩ | ⟨-, e⟩ | ⟨hv, hp, e⟩ | ⟨-, e⟩ := State.dispatch_cases { s with rxbuf := r } f
        · rw [e]; exact pass _ rfl rfl rfl hr
        · rw [e]; exact pass _ rfl rfl rfl hr
        · have h := State.reassembleLoop_noWait n (State.dispatch f { s with rxbuf := r }) (by simp [e])
          exact .inr ⟨hp, h.1.trans (by simp [e]), f, hf, hv.1, hv.2, h.2.trans (by simp [e])⟩
        · rw [e]; exact pass _ rfl rfl rfl hr

/-- Everything `reassemble` can do to the send in flight. -/
theorem State.reassemble_cases (s : State) :
    (s.reassemble.phase = s.phase ∧ s.reassemble.results = s.results) ∨
    State.AnsweredFrom s.rxbuf s s.reassemble :=
  State.reassembleLoop_cases _ s

end Sys2Proof.Machine
end

