-- ==== Sys2Proof/Laws/Exec.lean ====
section
/-! SUPPORT. What every event does, said once: it answers a next state, and it writes the output logs by the four appends of
Ops.lean only. -/

namespace Sys2Proof.Machine

/-- Every event has a next state: no meaning faults or refuses (spec/60_exceptions.md R194). -/
theorem exec_next (i : Instr) (s : State) : ∃ t, exec i s = .next t := by
  cases i
  case connect => simp only [exec, execConnect]; split_ifs <;> exact ⟨_, rfl⟩
  case disconnect => simp only [exec, execDisconnect]; split_ifs <;> exact ⟨_, rfl⟩
  case send => simp only [exec, execSend]; split_ifs <;> exact ⟨_, rfl⟩
  case readReg => simp only [exec, execReadReg]; split <;> exact ⟨_, rfl⟩
  case rxChunk => simp only [exec, execRxChunk]; split_ifs <;> exact ⟨_, rfl⟩
  case txDone => simp only [exec, execTxDone]; split_ifs <;> exact ⟨_, rfl⟩
  case tick => simp only [exec, execTick]; split <;> (try split_ifs) <;> exact ⟨_, rfl⟩
  case openDone => simp only [exec, execOpenDone]; split_ifs <;> exact ⟨_, rfl⟩
  all_goals exact ⟨_, rfl⟩

/-- A predicate that reads the logs and the merged trace only. -/
def State.LogsOnly (P : State → Prop) : Prop :=
  ∀ s t : State, t.txlog = s.txlog → t.chanreq = s.chanreq → t.notes = s.notes → t.results = s.results →
    t.trace = s.trace → P s → P t

/-- A predicate on the logs that each of the four appends keeps. -/
structure State.AppendClosed (P : State → Prop) : Prop where
  logsOnly : State.LogsOnly P
  txEmit : ∀ s b, P s → P (s.txEmit b)
  request : ∀ s r, P s → P (s.request r)
  notify : ∀ s n, P s → P (s.notify n)
  result : ∀ s r, P s → P (s.result r)

variable {P : State → Prop}

theorem State.AppendClosed.answer (hP : State.AppendClosed P) {s : State} (op : Byte) (r : Except ResultCode Out)
    (h : P s) : P (s.answer op r) := by
  cases r <;> exact hP.result _ _ h

theorem State.AppendClosed.writeFrame (hP : State.AppendClosed P) {s : State} (h : P s) : P s.writeFrame :=
  hP.logsOnly (s.txEmit s.txframe) _ rfl rfl rfl rfl rfl (hP.txEmit _ _ h)

theorem State.AppendClosed.finishSend (hP : State.AppendClosed P) {s : State} (code : ResultCode)
    (resp : Option Response) (h : P s) : P (s.finishSend code resp) :=
  hP.logsOnly (s.result ⟨0x32, code, if code = .ok then some (.response resp) else none⟩) _ rfl rfl rfl rfl rfl
    (hP.result _ _ h)

theorem State.AppendClosed.retry (hP : State.AppendClosed P) {s : State} (h : P s) : P s.retry := by
  obtain ⟨-, e⟩ | ⟨-, e⟩ := s.retry_cases
  · rw [e]
    exact hP.writeFrame (hP.logsOnly s _ rfl rfl rfl rfl rfl h)
  · rw [e]
    exact hP.finishSend _ _ h

theorem State.AppendClosed.dispatch (hP : State.AppendClosed P) {s : State} (f : Bytes) (h : P s) :
    P (s.dispatch f) := by
  obtain ⟨-, e⟩ | ⟨-, e⟩ | ⟨-, -, e⟩ | ⟨-, e⟩ := s.dispatch_cases f <;> rw [e]
  · exact hP.txEmit _ _ h
  · exact hP.notify _ _ h
  · exact hP.finishSend _ _ (hP.txEmit _ _ h)
  · exact hP.notify _ _ h

/-- What the four appends keep, every event keeps. -/
theorem State.AppendClosed.exec (hP : State.AppendClosed P) {i : Instr} {s t : State} (h : P s)
    (he : Sys2Proof.Machine.exec i s = .next t) : P t := by
  have same : ∀ {s t : State}, P s → t.txlog = s.txlog → t.chanreq = s.chanreq → t.notes = s.notes →
      t.results = s.results → t.trace = s.trace → P t := fun hs a b c d e => hP.logsOnly _ _ a b c d e hs
  cases i <;> simp only [Sys2Proof.Machine.exec] at he
  case connect =>
    simp only [execConnect] at he
    split_ifs at he <;> cases he
    · exact hP.result _ _ h
    · exact hP.result _ _ h
    · exact hP.request _ _ (same h rfl rfl rfl rfl rfl)
  case disconnect =>
    simp only [execDisconnect] at he
    split_ifs at he <;> cases he
    · exact hP.result _ _ (hP.request _ _ (hP.result _ _ (same h rfl rfl rfl rfl rfl)))
    · exact hP.result _ _ h
    · exact hP.result _ _ (hP.notify _ _ (hP.request _ _ (same (hP.finishSend _ _ h) rfl rfl rfl rfl rfl)))
    · exact hP.result _ _ (hP.notify _ _ (hP.request _ _ (same h rfl rfl rfl rfl rfl)))
  case send =>
    simp only [execSend] at he
    split_ifs at he <;> cases he
    · exact hP.result _ _ h
    · exact hP.result _ _ h
    · exact hP.writeFrame (same h rfl rfl rfl rfl rfl)
  case readReg =>
    simp only [execReadReg] at he
    split at he <;> cases he <;> exact hP.result _ _ h
  case rxChunk =>
    simp only [execRxChunk] at he
    split_ifs at he <;> cases he
    · exact h
    · exact h
    · obtain ⟨-, e⟩ | ⟨-, -, -, e⟩ | ⟨-, -, -, e⟩ | ⟨-, -, e⟩ := s.handshake_cases _ <;> rw [e]
      · exact h
      · exact same h rfl rfl rfl rfl rfl
      · exact hP.finishSend _ _ h
      · exact hP.retry h
    · exact State.reassemble_induct P (fun s b hs => same hs rfl rfl rfl rfl rfl)
        (fun s hs => same hs rfl rfl rfl rfl rfl) (fun s f hs => hP.dispatch f hs) _ (same h rfl rfl rfl rfl rfl)
  case txDone =>
    simp only [execTxDone] at he
    split_ifs at he <;> cases he
    · exact h
    · exact same h rfl rfl rfl rfl rfl
    · exact hP.finishSend _ _ h
  case tick =>
    simp only [execTick] at he
    split at he <;> (try split_ifs at he) <;> cases he
    · exact hP.retry (same h rfl rfl rfl rfl rfl)
    · exact same h rfl rfl rfl rfl rfl
    · exact hP.finishSend _ _ (same h rfl rfl rfl rfl rfl)
    · exact same h rfl rfl rfl rfl rfl
    · exact h
    · exact h
  case openDone =>
    simp only [execOpenDone] at he
    split_ifs at he <;> cases he
    · exact h
    · exact hP.result _ _ (hP.notify _ _ (same h rfl rfl rfl rfl rfl))
    · exact hP.result _ _ (same h rfl rfl rfl rfl rfl)
  case reset => cases he; exact same h rfl rfl rfl rfl rfl
  all_goals first
    | (cases he; exact hP.result _ _ h)
    | (cases he; exact hP.answer _ _ h)

end Sys2Proof.Machine
end

