-- ==== Sys2Proof/Laws/PerInstr.lean ====
section
/-! SUPPORT. The record round trip of one event, stated per event and proved per constructor. -/

namespace Sys2Proof.Laws.RecordRoundTrip

/-- A well-formed event is read back from the record that carries it (spec/30_encoding.md R55, R77). -/
def Statement (i : Instr) : Prop := i.wellFormed = true → decode (encode i) = .ok i

/-- The round trip of any event, from the decoder's and the encoder's lemmas. -/
theorem of_operands (i : Instr) : Statement i := by
  intro h
  simp [decode, encode, decodeOperands_operands h]

theorem checksum : ∀ a, Statement (.checksum a) := fun _ => of_operands _

theorem encNum : ∀ a b, Statement (.encNum a b) := fun _ _ => of_operands _

theorem encText : ∀ a b c, Statement (.encText a b c) := fun _ _ _ => of_operands _

theorem decAscii : ∀ a, Statement (.decAscii a) := fun _ => of_operands _

theorem decLocal : ∀ a, Statement (.decLocal a) := fun _ => of_operands _

theorem decNum : ∀ a, Statement (.decNum a) := fun _ => of_operands _

theorem classify : ∀ a b, Statement (.classify a b) := fun _ _ => of_operands _

theorem errLookup : ∀ a, Statement (.errLookup a) := fun _ => of_operands _

theorem buildFrame : ∀ a b c d, Statement (.buildFrame a b c d) := fun _ _ _ _ => of_operands _

theorem parseFrame : ∀ a, Statement (.parseFrame a) := fun _ => of_operands _

theorem findPacket : ∀ a, Statement (.findPacket a) := fun _ => of_operands _

theorem buildApprovalReq : ∀ a b c d e f g h, Statement (.buildApprovalReq a b c d e f g h) := fun _ _ _ _ _ _ _ _ => of_operands _

theorem buildCancelReq : ∀ a b c d e f g h i j k l m, Statement (.buildCancelReq a b c d e f g h i j k l m) := fun _ _ _ _ _ _ _ _ _ _ _ _ _ => of_operands _

theorem decApprovalRsp : ∀ a, Statement (.decApprovalRsp a) := fun _ => of_operands _

theorem decCardinqRsp : ∀ a, Statement (.decCardinqRsp a) := fun _ => of_operands _

theorem decDevchkRsp : ∀ a, Statement (.decDevchkRsp a) := fun _ => of_operands _

theorem decEventRsp : ∀ a, Statement (.decEventRsp a) := fun _ => of_operands _

theorem connect : ∀ a b, Statement (.connect a b) := fun _ _ => of_operands _

theorem disconnect : Statement (.disconnect) := of_operands _

theorem send : ∀ a b, Statement (.send a b) := fun _ _ => of_operands _

theorem readReg : ∀ a, Statement (.readReg a) := fun _ => of_operands _

theorem rxChunk : ∀ a, Statement (.rxChunk a) := fun _ => of_operands _

theorem txDone : ∀ a, Statement (.txDone a) := fun _ => of_operands _

theorem tick : Statement (.tick) := of_operands _

theorem openDone : ∀ a, Statement (.openDone a) := fun _ => of_operands _

theorem reset : Statement (.reset) := of_operands _

end Sys2Proof.Laws.RecordRoundTrip
end

