-- ==== Sys2Proof/Tests/Slice0.lean ====
section
/-! SUPPORT. Tests of the model on single events. Every expected value is the spec's: a vector of spec/95_test_vectors.md, named
in the comment, or a value worked out by hand from the rule named. The states are small and built on the example
configuration EX. The last part shows, for every obligation with hypotheses, concrete values that meet them. -/

open Sys2Proof Sys2Proof.Machine

namespace Sys2Proof.Tests

/-! ### Helpers -/

/-- The reset state under the configuration EX. -/
def ex : State := { State.reset with cfg := Config.exCfg }

/-- `Config.ex` with the policy TRUNCATE_HIGH. -/
def truncating : State :=
  { State.reset with cfg := { params := { Config.ex with overflowPolicy := .truncateHigh }, wf := by decide } }

/-- `Config.ex` with the smallest receive buffer R8 allows. -/
def smallBuffer : State :=
  { State.reset with connected := true, cfg := { params := { Config.ex with rxbufCap := 37 }, wf := by decide } }

/-- Connected and IDLE. -/
def idle : State := { ex with connected := true }

/-- A CONNECT is opening. -/
def opening : State := { ex with opening := true }

/-- A send in flight, in a given phase. -/
def flying (p : Phase) (attempt timer : Nat) (expect : Bool) : State :=
  { idle with phase := p, attempt := attempt, timer := timer, expect := expect, txframe := [0x41] }

/-- The state an event answers. -/
def after (i : Instr) (s : State) : Option State :=
  match exec i s with
  | .next t => some t
  | .fault _ => none
  | .refused _ => none

/-- The last result record after an event. -/
def resultOf (i : Instr) (s : State) : Option ResultRec := (after i s).bind (fun t => t.results.getLast?)

/-- The output of the last result record after an event, where its code is OK. -/
def outOf (i : Instr) (s : State) : Option Out :=
  (resultOf i s).bind (fun r => if r.code = .ok then r.out else none)

/-- The code of the last result record after an event. -/
def codeOf (i : Instr) (s : State) : Option ResultCode := (resultOf i s).map (fun r => r.code)

/-- The terminal identifier "TERM0001". -/
def tid : Bytes := [0x54, 0x45, 0x52, 0x4D, 0x30, 0x30, 0x30, 0x31]

/-- The timestamp "20260101120000". -/
def ts : Bytes := [0x32, 0x30, 0x32, 0x36, 0x30, 0x31, 0x30, 0x31, 0x31, 0x32, 0x30, 0x30, 0x30, 0x30]

/-- V-F1 of spec/95_test_vectors.md section 1.1. -/
def vF1 : Bytes :=
  [0x02, 0x54, 0x45, 0x52, 0x4D, 0x30, 0x30, 0x30, 0x31, 0x00, 0x00, 0x00, 0x00, 0x00, 0x00, 0x00, 0x00, 0x32,
   0x30, 0x32, 0x36, 0x30, 0x31, 0x30, 0x31, 0x31, 0x32, 0x30, 0x30, 0x30, 0x30, 0x42, 0x00, 0x00, 0x00, 0x03,
   0x49]

/-- V-A1 of spec/95_test_vectors.md section 1.1. -/
def vA1 : Bytes :=
  [0x02, 0x54, 0x45, 0x52, 0x4D, 0x30, 0x30, 0x30, 0x31, 0x00, 0x00, 0x00, 0x00, 0x00, 0x00, 0x00, 0x00, 0x32,
   0x30, 0x32, 0x36, 0x30, 0x31, 0x30, 0x31, 0x31, 0x32, 0x30, 0x30, 0x30, 0x30, 0x42, 0x00, 0x1E, 0x00, 0x31,
   0x30, 0x30, 0x30, 0x30, 0x30, 0x30, 0x35, 0x30, 0x30, 0x30, 0x30, 0x30, 0x30, 0x30, 0x30, 0x30, 0x30, 0x30,
   0x30, 0x30, 0x30, 0x30, 0x30, 0x30, 0x30, 0x30, 0x30, 0x30, 0x4E, 0x03, 0x2D]

/-- V-C2 of spec/95_test_vectors.md section 1.1. -/
def vC2 : Bytes :=
  [0x02, 0x54, 0x45, 0x52, 0x4D, 0x30, 0x30, 0x30, 0x31, 0x00, 0x00, 0x00, 0x00, 0x00, 0x00, 0x00, 0x00, 0x32,
   0x30, 0x32, 0x36, 0x30, 0x31, 0x30, 0x32, 0x30, 0x39, 0x30, 0x30, 0x30, 0x30, 0x43, 0x00, 0x3D, 0x00, 0x31,
   0x31, 0x30, 0x30, 0x30, 0x30, 0x30, 0x30, 0x35, 0x30, 0x30, 0x30, 0x30, 0x30, 0x30, 0x30, 0x30, 0x30, 0x30,
   0x30, 0x30, 0x30, 0x30, 0x30, 0x30, 0x30, 0x30, 0x30, 0x30, 0x30, 0x4E, 0x31, 0x32, 0x33, 0x34, 0x35, 0x36,
   0x37, 0x38, 0x39, 0x30, 0x31, 0x32, 0x32, 0x30, 0x32, 0x36, 0x30, 0x31, 0x30, 0x31, 0x31, 0x32, 0x30, 0x30,
   0x30, 0x30, 0x30, 0x32, 0x41, 0x42, 0x03, 0x31]

/-- V-R1 of spec/95_test_vectors.md section 1.1. -/
def vR1 : Bytes :=
  [0x30, 0x49, 0x31, 0x32, 0x33, 0x34, 0x35, 0x36, 0x2A, 0x2A, 0x2A, 0x2A, 0x2A, 0x2A, 0x37, 0x38, 0x39, 0x30,
   0x20, 0x20, 0x20, 0x20, 0x30, 0x30, 0x30, 0x30, 0x30, 0x30, 0x35, 0x30, 0x30, 0x30, 0x30, 0x30, 0x30, 0x30,
   0x30, 0x30, 0x30, 0x30, 0x30, 0x30, 0x30, 0x30, 0x30, 0x30, 0x30, 0x30, 0x30, 0x30, 0x31, 0x32, 0x33, 0x34,
   0x35, 0x20, 0x20, 0x20, 0x20, 0x20, 0x20, 0x20, 0x32, 0x30, 0x32, 0x36, 0x30, 0x31, 0x30, 0x31, 0x31, 0x32,
   0x30, 0x30, 0x30, 0x35, 0x30, 0x30, 0x30, 0x30, 0x30, 0x30, 0x30, 0x30, 0x30, 0x30, 0x30, 0x31, 0x4D, 0x45,
   0x52, 0x43, 0x48, 0x41, 0x4E, 0x54, 0x30, 0x31, 0x20, 0x20, 0x20, 0x20, 0x20, 0x54, 0x45, 0x52, 0x4D, 0x30,
   0x30, 0x30, 0x31, 0x20, 0x20, 0x30, 0x31, 0x30, 0x30, 0xB0, 0xA1, 0xB0, 0xA2, 0x20, 0x20, 0x20, 0x20, 0x20,
   0x20, 0x20, 0x20, 0x20, 0x20, 0x20, 0x20, 0x30, 0x32, 0x30, 0x30, 0x41, 0x43, 0x51, 0x20, 0x4E, 0x41, 0x4D,
   0x45, 0x20, 0x20, 0x20, 0x20, 0x20, 0x20, 0x20, 0x20]

/-- V-R2 of spec/95_test_vectors.md section 1.1. -/
def vR2 : Bytes :=
  [0x31, 0x49, 0x31, 0x32, 0x33, 0x34, 0x35, 0x36, 0x2A, 0x2A, 0x2A, 0x2A, 0x2A, 0x2A, 0x37, 0x38, 0x39, 0x30,
   0x20, 0x20, 0x20, 0x20, 0x30, 0x30, 0x30, 0x30, 0x30, 0x30, 0x30, 0x30, 0x30, 0x30, 0x30, 0x30, 0x30, 0x30,
   0x30, 0x30, 0x30, 0x30, 0x30, 0x30, 0x30, 0x30, 0x30, 0x30, 0x30, 0x30, 0x30, 0x30, 0x20, 0x20, 0x20, 0x20,
   0x20, 0x20, 0x20, 0x20, 0x20, 0x20, 0x20, 0x20, 0x32, 0x30, 0x32, 0x36, 0x30, 0x31, 0x30, 0x31, 0x31, 0x32,
   0x30, 0x30, 0x30, 0x35, 0x30, 0x30, 0x30, 0x30, 0x30, 0x30, 0x30, 0x30, 0x30, 0x30, 0x30, 0x32, 0x4D, 0x45,
   0x52, 0x43, 0x48, 0x41, 0x4E, 0x54, 0x30, 0x31, 0x20, 0x20, 0x20, 0x20, 0x20, 0x54, 0x45, 0x52, 0x4D, 0x30,
   0x30, 0x30, 0x31, 0x20, 0x20, 0x44, 0x45, 0x43, 0x4C, 0x49, 0x4E, 0x45, 0x44, 0x20, 0x20, 0x20, 0x20, 0x20,
   0x20, 0x20, 0x20, 0x20, 0x20, 0x20, 0x20, 0x2D, 0x30, 0x37, 0x53, 0x4F, 0x4D, 0x45, 0x20, 0x54, 0x45, 0x58,
   0x54, 0x00, 0x00, 0x00, 0x00, 0x00, 0x00, 0x00, 0x00]

/-- V-FR1 of spec/95_test_vectors.md section 1.1. -/
def vFR1 : Bytes :=
  [0x02, 0x54, 0x45, 0x52, 0x4D, 0x30, 0x30, 0x30, 0x31, 0x00, 0x00, 0x00, 0x00, 0x00, 0x00, 0x00, 0x00, 0x32,
   0x30, 0x32, 0x36, 0x30, 0x31, 0x30, 0x31, 0x31, 0x32, 0x30, 0x30, 0x30, 0x35, 0x62, 0x00, 0x99, 0x00, 0x30,
   0x49, 0x31, 0x32, 0x33, 0x34, 0x35, 0x36, 0x2A, 0x2A, 0x2A, 0x2A, 0x2A, 0x2A, 0x37, 0x38, 0x39, 0x30, 0x20,
   0x20, 0x20, 0x20, 0x30, 0x30, 0x30, 0x30, 0x30, 0x30, 0x35, 0x30, 0x30, 0x30, 0x30, 0x30, 0x30, 0x30, 0x30,
   0x30, 0x30, 0x30, 0x30, 0x30, 0x30, 0x30, 0x30, 0x30, 0x30, 0x30, 0x30, 0x30, 0x31, 0x32, 0x33, 0x34, 0x35,
   0x20, 0x20, 0x20, 0x20, 0x20, 0x20, 0x20, 0x32, 0x30, 0x32, 0x36, 0x30, 0x31, 0x30, 0x31, 0x31, 0x32, 0x30,
   0x30, 0x30, 0x35, 0x30, 0x30, 0x30, 0x30, 0x30, 0x30, 0x30, 0x30, 0x30, 0x30, 0x30, 0x31, 0x4D, 0x45, 0x52,
   0x43, 0x48, 0x41, 0x4E, 0x54, 0x30, 0x31, 0x20, 0x20, 0x20, 0x20, 0x20, 0x54, 0x45, 0x52, 0x4D, 0x30, 0x30,
   0x30, 0x31, 0x20, 0x20, 0x30, 0x31, 0x30, 0x30, 0xB0, 0xA1, 0xB0, 0xA2, 0x20, 0x20, 0x20, 0x20, 0x20, 0x20,
   0x20, 0x20, 0x20, 0x20, 0x20, 0x20, 0x30, 0x32, 0x30, 0x30, 0x41, 0x43, 0x51, 0x20, 0x4E, 0x41, 0x4D, 0x45,
   0x20, 0x20, 0x20, 0x20, 0x20, 0x20, 0x20, 0x20, 0x03, 0xC8]

/-- V-FR2 of spec/95_test_vectors.md section 1.1. -/
def vFR2 : Bytes :=
  [0x02, 0x54, 0x45, 0x52, 0x4D, 0x30, 0x30, 0x30, 0x31, 0x00, 0x00, 0x00, 0x00, 0x00, 0x00, 0x00, 0x00, 0x32,
   0x30, 0x32, 0x36, 0x30, 0x31, 0x30, 0x31, 0x31, 0x32, 0x30, 0x30, 0x30, 0x35, 0x62, 0x00, 0x99, 0x00, 0x31,
   0x49, 0x31, 0x32, 0x33, 0x34, 0x35, 0x36, 0x2A, 0x2A, 0x2A, 0x2A, 0x2A, 0x2A, 0x37, 0x38, 0x39, 0x30, 0x20,
   0x20, 0x20, 0x20, 0x30, 0x30, 0x30, 0x30, 0x30, 0x30, 0x30, 0x30, 0x30, 0x30, 0x30, 0x30, 0x30, 0x30, 0x30,
   0x30, 0x30, 0x30, 0x30, 0x30, 0x30, 0x30, 0x30, 0x30, 0x30, 0x30, 0x30, 0x30, 0x20, 0x20, 0x20, 0x20, 0x20,
   0x20, 0x20, 0x20, 0x20, 0x20, 0x20, 0x20, 0x32, 0x30, 0x32, 0x36, 0x30, 0x31, 0x30, 0x31, 0x31, 0x32, 0x30,
   0x30, 0x30, 0x35, 0x30, 0x30, 0x30, 0x30, 0x30, 0x30, 0x30, 0x30, 0x30, 0x30, 0x30, 0x32, 0x4D, 0x45, 0x52,
   0x43, 0x48, 0x41, 0x4E, 0x54, 0x30, 0x31, 0x20, 0x20, 0x20, 0x20, 0x20, 0x54, 0x45, 0x52, 0x4D, 0x30, 0x30,
   0x30, 0x31, 0x20, 0x20, 0x44, 0x45, 0x43, 0x4C, 0x49, 0x4E, 0x45, 0x44, 0x20, 0x20, 0x20, 0x20, 0x20, 0x20,
   0x20, 0x20, 0x20, 0x20, 0x20, 0x20, 0x2D, 0x30, 0x37, 0x53, 0x4F, 0x4D, 0x45, 0x20, 0x54, 0x45, 0x58, 0x54,
   0x00, 0x00, 0x00, 0x00, 0x00, 0x00, 0x00, 0x00, 0x03, 0xA1]

/-- V-EV of spec/95_test_vectors.md section 1.1. -/
def vEV : Bytes :=
  [0x02, 0x54, 0x45, 0x52, 0x4D, 0x30, 0x30, 0x30, 0x31, 0x00, 0x00, 0x00, 0x00, 0x00, 0x00, 0x00, 0x00, 0x32,
   0x30, 0x32, 0x36, 0x30, 0x31, 0x30, 0x31, 0x31, 0x32, 0x30, 0x30, 0x30, 0x33, 0x40, 0x00, 0x01, 0x00, 0x49,
   0x03, 0x00]

/-- V-Q1 of spec/95_test_vectors.md section 1.1. -/
def vQ1 : Bytes :=
  [0x52, 0x31, 0x31, 0x30, 0x31, 0x30, 0x2A, 0x2A, 0x2A, 0x2A, 0x2A, 0x2A, 0x2A, 0x2A, 0x31, 0x32, 0x33, 0x34,
   0x20, 0x20, 0x20, 0x20, 0x32, 0x30, 0x32, 0x36, 0x30, 0x31, 0x30, 0x31, 0x31, 0x31, 0x35, 0x39, 0x35, 0x39,
   0x30, 0x30, 0x30, 0x30, 0x30, 0x30, 0x31, 0x32, 0x35, 0x30, 0x30, 0x30, 0x30, 0x30, 0x30, 0x34, 0x38, 0x37,
   0x35, 0x30, 0x30]

set_option maxRecDepth 20000

/-! ### WellFormed: an ill-formed term for each check -/

/-- R56: a width is at least 1. -/
theorem test_wf_encNum_width_zero :
    (Instr.encNum 5 0).wellFormed = false := by decide

/-- R56: a width is at most 255. -/
theorem test_wf_encNum_width_256 :
    (Instr.encNum 5 256).wellFormed = false := by decide

/-- R56: a width is at least 1. -/
theorem test_wf_encText_width_zero :
    (Instr.encText [] 0 0x20).wellFormed = false := by decide

/-- R56: a width is at most 255. -/
theorem test_wf_encText_width_256 :
    (Instr.encText [] 256 0x20).wellFormed = false := by decide

/-- R56: both ends of the range. -/
theorem test_wf_width_bounds :
    (Instr.encNum 5 1).wellFormed = true ∧ (Instr.encText [] 255 0x20).wellFormed = true := by decide

/-- R10: `P_ACK != P_NAK`. -/
theorem test_wf_cfg_ack_is_nak :
    ({ Config.ex with nak := 0x06 } : Params).wellFormed = false := by decide

/-- R10: the job codes are pairwise distinct. -/
theorem test_wf_cfg_equal_job_codes :
    ({ Config.ex with jcEventRsp := 0x42 } : Params).wellFormed = false := by decide

/-- R8: the approval request's job code is an ASCII byte 0x20..0x7E. -/
theorem test_wf_cfg_approval_job_code_range :
    ({ Config.ex with jcApprovalReq := 0x7F } : Params).wellFormed = false ∧
      ({ Config.ex with jcApprovalReq := 0x1F } : Params).wellFormed = false := by decide

/-- R8: every other job code is an ASCII byte. -/
theorem test_wf_cfg_job_code_not_ascii :
    ({ Config.ex with jcCancelReq := 0x80 } : Params).wellFormed = false ∧
      ({ Config.ex with jcCardinqRsp := 0x80 } : Params).wellFormed = false := by decide

/-- R8: "ASCII byte" takes in the control characters, 0x00 and 0x7F among them. -/
theorem test_wf_cfg_control_characters :
    ({ Config.ex with jcCancelReq := 0x7F, jcEventRsp := 0x00, ttApproved := 0x1F, ttRejected := 0x00 } :
      Params).wellFormed = true := by decide

/-- R10: `P_TT_APPROVED != P_TT_REJECTED`. -/
theorem test_wf_cfg_equal_tx_types :
    ({ Config.ex with ttRejected := 0x30 } : Params).wellFormed = false := by decide

/-- R8: a transaction type is an ASCII byte. -/
theorem test_wf_cfg_tx_type_not_ascii :
    ({ Config.ex with ttApproved := 0x80 } : Params).wellFormed = false := by decide

/-- R8: at least one attempt. -/
theorem test_wf_cfg_no_attempt :
    ({ Config.ex with maxAttempts := 0 } : Params).wellFormed = false := by decide

/-- R8: at least one tick. -/
theorem test_wf_cfg_no_ack_tick :
    ({ Config.ex with ackTimeout := 0 } : Params).wellFormed = false := by decide

/-- R8: at least one tick. -/
theorem test_wf_cfg_no_rsp_tick :
    ({ Config.ex with rspTimeout := 0 } : Params).wellFormed = false := by decide

/-- R8: `P_RXBUF_CAP >= 37`. -/
theorem test_wf_cfg_small_buffer :
    ({ Config.ex with rxbufCap := 36 } : Params).wellFormed = false := by decide

/-- R10: the three widths sum to 26. -/
theorem test_wf_cfg_cancel_sum :
    ({ Config.ex with wOdate := 9 } : Params).wellFormed = false := by decide

/-- R8: each of the three widths is at least 1. -/
theorem test_wf_cfg_cancel_zero :
    ({ Config.ex with wOdate := 0, wApprno := 20 } : Params).wellFormed = false := by decide

/-- R8: a code width is at most 20. -/
theorem test_wf_cfg_code_width :
    ({ Config.ex with issuerCodeW := 21 } : Params).wellFormed = false ∧
      ({ Config.ex with acquirerCodeW := 21 } : Params).wellFormed = false := by decide

/-! ### Decoding: a word of every row, written out from R77 and R55 -/

/-- R77 and R55; the places R55 leaves open are log entry 2. -/
theorem test_decode_checksum :
    decodeWire [0x01, 0x02, 0x00, 0x00, 0x00, 0x41, 0x42] = .ok (.checksum [0x41, 0x42], []) := by rfl

/-- R77 and R55; the places R55 leaves open are log entry 2. -/
theorem test_decode_encNum :
    decodeWire [0x02, 0x88, 0x13, 0x00, 0x00, 0x09] = .ok (.encNum 5000 10, []) := by rfl

/-- R77 and R55; the places R55 leaves open are log entry 2. -/
theorem test_decode_encText :
    decodeWire [0x03, 0x01, 0x00, 0x00, 0x00, 0x54, 0x0F, 0x20] = .ok (.encText [0x54] 16 0x20, []) := by rfl

/-- R77 and R55; the places R55 leaves open are log entry 2. -/
theorem test_decode_decAscii :
    decodeWire [0x04, 0x01, 0x00, 0x00, 0x00, 0x41] = .ok (.decAscii [0x41], []) := by rfl

/-- R77 and R55; the places R55 leaves open are log entry 2. -/
theorem test_decode_decLocal :
    decodeWire [0x05, 0x01, 0x00, 0x00, 0x00, 0xFF] = .ok (.decLocal [0xFF], []) := by rfl

/-- R77 and R55; the places R55 leaves open are log entry 2. -/
theorem test_decode_decNum :
    decodeWire [0x06, 0x01, 0x00, 0x00, 0x00, 0x37] = .ok (.decNum [0x37], []) := by rfl

/-- R77 and R55; the places R55 leaves open are log entry 2. -/
theorem test_decode_classify :
    decodeWire [0x07, 0x02, 0x5A] = .ok (.classify .media 0x5A, []) := by rfl

/-- R77 and R55; the places R55 leaves open are log entry 2. -/
theorem test_decode_errLookup :
    decodeWire [0x08, 0x02, 0x00, 0x00, 0x00, 0x30, 0x37] = .ok (.errLookup [0x30, 0x37], []) := by rfl

/-- R77 and R55; the places R55 leaves open are log entry 2. -/
theorem test_decode_buildFrame :
    decodeWire [0x10, 0x01, 0x00, 0x00, 0x00, 0x54, 0x01, 0x00, 0x00, 0x00, 0x32, 0x42, 0x01, 0x00, 0x00, 0x00, 0x78] = .ok (.buildFrame [0x54] [0x32] 0x42 [0x78], []) := by rfl

/-- R77 and R55; the places R55 leaves open are log entry 2. -/
theorem test_decode_parseFrame :
    decodeWire [0x11, 0x01, 0x00, 0x00, 0x00, 0x02] = .ok (.parseFrame [0x02], []) := by rfl

/-- R77 and R55; the places R55 leaves open are log entry 2. -/
theorem test_decode_findPacket :
    decodeWire [0x12, 0x01, 0x00, 0x00, 0x00, 0x02] = .ok (.findPacket [0x02], []) := by rfl

/-- R77 and R55; the places R55 leaves open are log entry 2. -/
theorem test_decode_buildApprovalReq :
    decodeWire [0x20, 0x01, 0x00, 0x00, 0x00, 0x54, 0x01, 0x00, 0x00, 0x00, 0x32, 0x31, 0x88, 0x13, 0x00, 0x00,
      0x02, 0x00, 0x00, 0x00, 0x03, 0x00, 0x00, 0x00, 0x04, 0x00, 0x00, 0x00, 0x4E] = .ok (.buildApprovalReq [0x54] [0x32] 0x31 5000 2 3 4 0x4E, []) := by rfl

/-- R77 and R55; the places R55 leaves open are log entry 2. -/
theorem test_decode_buildCancelReq :
    decodeWire [0x21, 0x01, 0x00, 0x00, 0x00, 0x54, 0x01, 0x00, 0x00, 0x00, 0x32, 0x31, 0x30, 0x88, 0x13, 0x00, 0x00,
      0x02, 0x00, 0x00, 0x00, 0x03, 0x00, 0x00, 0x00, 0x04, 0x00, 0x00, 0x00, 0x4E, 0x01, 0x00, 0x00, 0x00, 0x35,
      0x01, 0x00, 0x00, 0x00, 0x36, 0x01, 0x00, 0x00, 0x00, 0x37, 0x01, 0x01, 0x00, 0x00, 0x00, 0x38] = .ok (.buildCancelReq [0x54] [0x32] 0x31 0x30 5000 2 3 4 0x4E [0x35] [0x36] [0x37] (some [0x38]), []) := by rfl

/-- R77 and R55; the places R55 leaves open are log entry 2. -/
theorem test_decode_decApprovalRsp :
    decodeWire [0x22, 0x01, 0x00, 0x00, 0x00, 0x30] = .ok (.decApprovalRsp [0x30], []) := by rfl

/-- R77 and R55; the places R55 leaves open are log entry 2. -/
theorem test_decode_decCardinqRsp :
    decodeWire [0x23, 0x01, 0x00, 0x00, 0x00, 0x52] = .ok (.decCardinqRsp [0x52], []) := by rfl

/-- R77 and R55; the places R55 leaves open are log entry 2. -/
theorem test_decode_decDevchkRsp :
    decodeWire [0x24, 0x01, 0x00, 0x00, 0x00, 0x4F] = .ok (.decDevchkRsp [0x4F], []) := by rfl

/-- R77 and R55; the places R55 leaves open are log entry 2. -/
theorem test_decode_decEventRsp :
    decodeWire [0x25, 0x01, 0x00, 0x00, 0x00, 0x49] = .ok (.decEventRsp [0x49], []) := by rfl

/-- R77 and R55; the places R55 leaves open are log entry 2. -/
theorem test_decode_connect :
    decodeWire [0x30, 0x01, 0x00, 0x00, 0x00, 0x43, 0x01, 0x80, 0x25, 0x00, 0x00] = .ok (.connect [0x43] (some 9600), []) := by rfl

/-- R77 and R55; the places R55 leaves open are log entry 2. -/
theorem test_decode_disconnect :
    decodeWire [0x31] = .ok (.disconnect, []) := by rfl

/-- R77 and R55; the places R55 leaves open are log entry 2. -/
theorem test_decode_send :
    decodeWire [0x32, 0x01, 0x00, 0x00, 0x00, 0x41, 0x01] = .ok (.send [0x41] true, []) := by rfl

/-- Section 4.7 of spec/95_test_vectors.md. -/
theorem test_decode_readReg :
    decodeWire [0x33, 0x04, 0x00, 0x00, 0x00] = .ok (.readReg 4, []) := by rfl

/-- Section 4.7 of spec/95_test_vectors.md. -/
theorem test_decode_rxChunk :
    decodeWire [0x40, 0x01, 0x00, 0x00, 0x00, 0x06] = .ok (.rxChunk [0x06], []) := by rfl

/-- Section 4.7 of spec/95_test_vectors.md. -/
theorem test_decode_txDone :
    decodeWire [0x41, 0x01] = .ok (.txDone true, []) := by rfl

/-- Section 4.7 of spec/95_test_vectors.md. -/
theorem test_decode_tick :
    decodeWire [0x42] = .ok (.tick, []) := by rfl

/-- Section 4.7 of spec/95_test_vectors.md. -/
theorem test_decode_openDone :
    decodeWire [0x43, 0x01] = .ok (.openDone true, []) := by rfl

/-- R77 and R55; the places R55 leaves open are log entry 2. -/
theorem test_decode_reset :
    decodeWire [0x4F] = .ok (.reset, []) := by rfl

/-- A table word of each family: the opcode byte, and zeros for every operand. -/
theorem test_decode_table_words :
    [0x01, 0x08, 0x10, 0x21, 0x33, 0x4F].map (fun w => (decodeTableWord 8 w).map Instr.opcode) =
      [some .checksum, some .errLookup, some .buildFrame, some .buildCancelReq, some .readReg, some .reset] := by decide

/-- R78: an opcode that is not in the map (PE-30 uses 0x13). -/
theorem test_decode_illegal :
    decodeTableWord 8 0x13 = none ∧ decodeTableWord 8 0x00 = none ∧ decodeTableWord 8 0xFF = none := by decide

/-! ### Field codec (spec/95_test_vectors.md section 3.1) -/

/-- FD-2. -/
theorem test_checksum_AB :
    outOf (.checksum [0x41, 0x42]) ex = some (.bcc 0x03) := by decide

/-- FD-3. -/
theorem test_checksum_vF1 :
    outOf (.checksum (vF1.take 36)) ex = some (.bcc 0x49) := by decide

/-- EN-7. -/
theorem test_encNum_overflow :
    resultOf (.encNum 100 2) ex = some ⟨0x02, .valueTooLarge, none⟩ := by decide

/-- EN-8. -/
theorem test_encNum_truncates :
    outOf (.encNum 123456 4) truncating = some (.field [0x33, 0x34, 0x35, 0x36]) := by decide

/-- ET-5. -/
theorem test_encText_pads :
    outOf (.encText [0x31, 0x32, 0x33, 0x34, 0x35] 12 0x20) ex =
      some (.field ([0x31, 0x32, 0x33, 0x34, 0x35] ++ List.replicate 7 0x20)) := by decide

/-- ET-6. -/
theorem test_encText_truncates :
    outOf (.encText [0x31, 0x32, 0x33, 0x34, 0x35, 0x36, 0x37, 0x38, 0x39, 0x30, 0x31, 0x32, 0x33] 12 0x20)
      ex = some (.field [0x31, 0x32, 0x33, 0x34, 0x35, 0x36, 0x37, 0x38, 0x39, 0x30, 0x31, 0x32]) := by decide

/-- FD-6a. -/
theorem test_decAscii_inner_nul :
    outOf (.decAscii [0x41, 0x00, 0x42]) ex = some (.text [0x41, 0x42]) := by decide

/-- FD-6b. -/
theorem test_decAscii_trims :
    outOf (.decAscii [0x09, 0x20, 0x58, 0x20, 0x59, 0x20, 0x0D, 0x0A]) ex = some (.text [0x58, 0x20, 0x59]) := by decide

/-- FD-7. -/
theorem test_decLocal_invalid :
    outOf (.decLocal [0xFF, 0x41, 0x20, 0x20]) ex = some (.localText ⟨[0xFF, 0x41], false⟩) := by decide

/-- FD-8. -/
theorem test_decLocal_valid :
    outOf (.decLocal [0xB0, 0xA1, 0x20]) ex = some (.localText ⟨[0xB0, 0xA1], true⟩) := by decide

/-- DN-4. -/
theorem test_decNum_trims :
    outOf (.decNum [0x20, 0x20, 0x31, 0x32, 0x20]) ex = some (.num ⟨12, true⟩) := by decide

/-- DN-8. -/
theorem test_decNum_inner_space :
    outOf (.decNum [0x31, 0x20, 0x32]) ex = some (.num ⟨0, false⟩) := by decide

/-- CL-4. -/
theorem test_classify_job :
    outOf (.classify .job 0x62) ex = some (.classified ⟨.job .approvalRsp, 0x62⟩) := by decide

/-- CL-2. -/
theorem test_classify_unrecognized :
    outOf (.classify .tt 0x32) ex = some (.classified ⟨.unrecognized, 0x32⟩) := by decide

/-- EL-1. -/
theorem test_errLookup_found :
    outOf (.errLookup [0x30, 0x37]) ex =
      some (.errMessage ⟨true, [0x43, 0x41, 0x52, 0x44, 0x20, 0x45, 0x58, 0x50, 0x49, 0x52, 0x45, 0x44]⟩) := by decide

/-- EL-3. -/
theorem test_errLookup_short :
    resultOf (.errLookup [0x37]) ex = some ⟨0x08, .badOperand, none⟩ := by decide

/-! ### Frame codec (sections 3.2 and 3.3) -/

/-- FC-1. -/
theorem test_buildFrame_vF1 :
    outOf (.buildFrame tid ts 0x42 []) ex = some (.frame vF1) := by decide

/-- FC-3. -/
theorem test_buildFrame_short_ts :
    codeOf (.buildFrame [0x54] [0x32, 0x30, 0x32, 0x36] 0x42 []) ex = some .badOperand := by decide

/-- FC-10. -/
theorem test_parseFrame_vA1 :
    outOf (.parseFrame vA1) ex =
      some (.parsed ⟨true, .valid, tid ++ List.replicate 8 0, tid, ts, 0x42, 0x00, 30, (vA1.drop 35).take 30⟩) := by decide

/-- FC-14a. -/
theorem test_parseFrame_trailing_byte :
    outOf (.parseFrame (vF1 ++ [0x00])) ex =
      some (.parsed ⟨false, .lenMismatch, [], [], [], 0, 0, 0, []⟩) := by decide

/-- SC-8. -/
theorem test_findPacket_after_noise :
    outOf (.findPacket ([0xFF, 0xFF] ++ vF1)) ex = some (.scan ⟨.complete, 2, 37⟩) := by decide

/-- SC-10. -/
theorem test_findPacket_stalls :
    outOf (.findPacket (vF1.set 35 0x04 ++ vA1)) ex = some (.scan ⟨.incomplete, 0, 0⟩) := by decide

/-! ### Messages (section 3.4) -/

/-- MS-1. -/
theorem test_buildApprovalReq_vA1 :
    outOf (.buildApprovalReq tid ts 0x31 5000 0 0 0 0x4E) ex = some (.frame vA1) := by decide

/-- MS-3. -/
theorem test_buildApprovalReq_installments :
    codeOf (.buildApprovalReq tid ts 0x31 5000 0 0 100 0x4E) ex = some .valueTooLarge := by decide

/-- MS-5. -/
theorem test_buildCancelReq_vC2 :
    outOf (.buildCancelReq tid [0x32, 0x30, 0x32, 0x36, 0x30, 0x31, 0x30, 0x32, 0x30, 0x39, 0x30, 0x30, 0x30, 0x30]
      0x31 0x31 5000 0 0 0 0x4E [0x31, 0x32, 0x33, 0x34, 0x35, 0x36, 0x37, 0x38, 0x39, 0x30, 0x31, 0x32, 0x33]
      [0x32, 0x30, 0x32, 0x36, 0x30, 0x31, 0x30, 0x31] [0x31, 0x32, 0x30, 0x30, 0x30, 0x30] (some [0x41, 0x42])) ex = some (.frame vC2) := by decide

/-- MS-8. -/
theorem test_buildCancelReq_check_order :
    codeOf (.buildCancelReq tid ts 0x31 0x31 10000000000 0 0 0 0x4E [] [0x32, 0x30, 0x32, 0x36, 0x30, 0x31, 0x30, 0x31]
      [0x31, 0x32, 0x30, 0x30, 0x30, 0x30] (some (List.replicate 100 0x78))) ex = some .fieldTooLong := by decide

/-- MS-9. -/
theorem test_decApprovalRsp_rejected :
    outOf (.decApprovalRsp vR2) ex = some (.approvalRsp
      { transactionType := ⟨.tt .rejected, 0x31⟩
        transactionMedia := ⟨.media .ic, 0x49⟩
        cardNumber := [0x31, 0x32, 0x33, 0x34, 0x35, 0x36, 0x2A, 0x2A, 0x2A, 0x2A, 0x2A, 0x2A, 0x37, 0x38, 0x39, 0x30]
        approvedAmount := ⟨0, true⟩
        tax := ⟨0, true⟩
        serviceCharge := ⟨0, true⟩
        installmentCount := ⟨0, true⟩
        approvalNumber := []
        salesDate := [0x32, 0x30, 0x32, 0x36, 0x30, 0x31, 0x30, 0x31]
        salesTime := [0x31, 0x32, 0x30, 0x30, 0x30, 0x35]
        transactionId := [0x30, 0x30, 0x30, 0x30, 0x30, 0x30, 0x30, 0x30, 0x30, 0x30, 0x30, 0x32]
        merchantId := [0x4D, 0x45, 0x52, 0x43, 0x48, 0x41, 0x4E, 0x54, 0x30, 0x31]
        terminalNumber := tid
        issuerCode := []
        issuerName := ⟨[], true⟩
        acquirerCode := []
        acquirerName := ⟨[], true⟩
        isRejected := true
        rejectCode := some [0x30, 0x37]
        rejectMessage := some ⟨[0x43, 0x41, 0x52, 0x44, 0x20, 0x45, 0x58, 0x50, 0x49, 0x52, 0x45, 0x44], true, true⟩ }) := by decide

/-- MS-10. -/
theorem test_decApprovalRsp_approved :
    outOf (.decApprovalRsp vR1) ex = some (.approvalRsp
      { transactionType := ⟨.tt .approved, 0x30⟩
        transactionMedia := ⟨.media .ic, 0x49⟩
        cardNumber := [0x31, 0x32, 0x33, 0x34, 0x35, 0x36, 0x2A, 0x2A, 0x2A, 0x2A, 0x2A, 0x2A, 0x37, 0x38, 0x39, 0x30]
        approvedAmount := ⟨5000, true⟩
        tax := ⟨0, true⟩
        serviceCharge := ⟨0, true⟩
        installmentCount := ⟨0, true⟩
        approvalNumber := [0x31, 0x32, 0x33, 0x34, 0x35]
        salesDate := [0x32, 0x30, 0x32, 0x36, 0x30, 0x31, 0x30, 0x31]
        salesTime := [0x31, 0x32, 0x30, 0x30, 0x30, 0x35]
        transactionId := [0x30, 0x30, 0x30, 0x30, 0x30, 0x30, 0x30, 0x30, 0x30, 0x30, 0x30, 0x31]
        merchantId := [0x4D, 0x45, 0x52, 0x43, 0x48, 0x41, 0x4E, 0x54, 0x30, 0x31]
        terminalNumber := tid
        issuerCode := [0x30, 0x31, 0x30, 0x30]
        issuerName := ⟨[0xB0, 0xA1, 0xB0, 0xA2], true⟩
        acquirerCode := [0x30, 0x32, 0x30, 0x30]
        acquirerName := ⟨[0x41, 0x43, 0x51, 0x20, 0x4E, 0x41, 0x4D, 0x45], true⟩
        isRejected := false
        rejectCode := none
        rejectMessage := none }) := by decide

/-- MS-15. -/
theorem test_decCardinqRsp_vQ1 :
    outOf (.decCardinqRsp vQ1) ex = some (.cardInqRsp
      { transactionMedia := ⟨.media .rfOrMs, 0x52⟩
        cardType := [0x31]
        cardNumber := [0x31, 0x30, 0x31, 0x30, 0x2A, 0x2A, 0x2A, 0x2A, 0x2A, 0x2A, 0x2A, 0x2A, 0x31, 0x32, 0x33, 0x34]
        lastTransactionDateTime := [0x32, 0x30, 0x32, 0x36, 0x30, 0x31, 0x30, 0x31, 0x31, 0x31, 0x35, 0x39, 0x35, 0x39]
        lastTransactionAmount := ⟨1250, true⟩
        cardBalance := ⟨48750, true⟩
        transactionStatus := [0x30] }) := by decide

/-- MS-16. -/
theorem test_decCardinqRsp_short :
    codeOf (.decCardinqRsp (vQ1.take 56)) ex = some .decodeShort := by decide

/-- MS-18. -/
theorem test_decDevchkRsp_unknown :
    outOf (.decDevchkRsp [0x4F, 0x4F, 0x5A, 0x4F]) ex = some (.devchkRsp
      ⟨⟨.devStatus .ok, 0x4F⟩, ⟨.devStatus .ok, 0x4F⟩, ⟨.unrecognized, 0x5A⟩, ⟨.devStatus .ok, 0x4F⟩⟩) := by decide

/-- MS-19. -/
theorem test_decDevchkRsp_short :
    codeOf (.decDevchkRsp [0x4F, 0x4F, 0x58]) ex = some .decodeShort := by decide

/-- MS-20. -/
theorem test_decEventRsp_removed :
    outOf (.decEventRsp [0x4F]) ex = some (.eventRsp ⟨.event .cardRemoved, 0x4F⟩) := by decide

/-- MS-21. -/
theorem test_decEventRsp_empty :
    codeOf (.decEventRsp []) ex = some .decodeShort := by decide

/-! ### Protocol engine (section 3.5) -/

/-- PE-2. -/
theorem test_connect_opens :
    (after (.connect [0x43, 0x4F, 0x4D, 0x33] none) ex).map (fun t => (t.opening, t.chanreq, t.results)) =
      some (true, [.openChannel [0x43, 0x4F, 0x4D, 0x33] 0 ⟨0, 0, 0⟩], []) := by decide

/-- PE-7. -/
theorem test_connect_connected :
    resultOf (.connect [0x43, 0x4F, 0x4D, 0x33] none) idle = some ⟨0x30, .alreadyConnected, none⟩ := by decide

/-- PE-25, with the order of R155. -/
theorem test_disconnect_in_flight :
    (after .disconnect { flying .ackWait 1 0 true with rxbuf := [0x02, 0x41], rxOverflow := true }).map
        (fun t => (t.trace, decide (t = { idle with
          connected := false, rxOverflow := true, chanreq := t.chanreq, notes := t.notes, results := t.results,
          trace := t.trace }))) =
      some ([.result ⟨0x32, .disconnecting, none⟩, .chan .close, .note .disconnected, .result ⟨0x31, .ok, some .empty⟩],
        true) := by decide

/-- PE-26. -/
theorem test_disconnect_not_connected :
    (after .disconnect ex).map (fun t => t.trace) = some [.result ⟨0x31, .ok, some .empty⟩] := by decide

/-- PE-8. -/
theorem test_send_writes :
    (after (.send vA1 true) idle).map
        (fun t => (t.txlog, t.results, decide (t = { flying .txDrain 1 0 true with
          txframe := vA1, txlog := t.txlog, trace := t.trace }))) = some ([vA1], [], true) := by decide

/-- PE-3. -/
theorem test_send_while_opening :
    (after (.send vA1 false) opening).map (fun t => (t.txlog, t.results)) =
      some ([], [⟨0x32, .notConnected, none⟩]) := by decide

/-- PE-28. -/
theorem test_readReg_in_flight :
    [1, 2, 5].map (fun n => outOf (.readReg n) (flying .rspWait 2 0 true)) =
      [some (.value 3), some (.value 2), some (.value 1)] := by decide

/-- PE-29. -/
theorem test_readReg_unknown :
    resultOf (.readReg 6) ex = some ⟨0x33, .badOperand, none⟩ := by decide

/-- PE-19. -/
theorem test_rxChunk_response :
    (after (.rxChunk vFR1) (flying .rspWait 1 4 true)).map
        (fun t => (t.trace.head?, t.phase, t.rxbuf)) = some (some (.tx [0x06]), .idle, []) ∧
      codeOf (.rxChunk vFR1) (flying .rspWait 1 4 true) = some .ok := by decide

/-- Step 6 of program P4 (section 4.4). -/
theorem test_rxChunk_event_then_nack :
    (after (.rxChunk ([0xFF, 0xFF] ++ vEV ++ vFR2.set 189 0x5E)) (flying .rspWait 1 4 true)).map
        (fun t => (t.txlog, t.notes.length, decide (t = { flying .rspWait 1 4 true with
          txlog := t.txlog, notes := t.notes, trace := t.trace }))) = some ([[0x15]], 1, true) := by decide

/-- PE-12. -/
theorem test_txDone_failed :
    (after (.txDone false) (flying .txDrain 1 0 true)).map (fun t => (t.phase, t.attempt, t.txframe, t.results)) =
      some (.idle, 0, [], [⟨0x32, .writeFailed, none⟩]) := by decide

/-- PE-11. -/
theorem test_txDone_drained :
    (after (.txDone true) (flying .txDrain 1 0 true)).map (fun t => (t.phase, t.timer)) = some (.ackWait, 0) := by decide

/-- PE-14. -/
theorem test_tick_retries :
    (after .tick (flying .ackWait 1 2 true)).map (fun t => (t.txlog, t.phase, t.attempt, t.timer)) =
      some ([[0x41]], .txDrain, 2, 0) := by decide

/-- PE-18. -/
theorem test_tick_response_timeout :
    (after .tick (flying .rspWait 1 9 true)).map (fun t => (t.txlog, t.phase, t.results)) =
      some ([], .idle, [⟨0x32, .responseTimeout, none⟩]) := by decide

/-- PE-5. -/
theorem test_openDone_connects :
    (after (.openDone true) opening).map (fun t => (t.connected, t.opening, t.trace)) =
      some (true, false, [.note .connected, .result ⟨0x30, .ok, some .empty⟩]) := by decide

/-- PE-6. -/
theorem test_openDone_fails :
    (after (.openDone false) opening).map (fun t => (t.connected, t.opening, t.trace)) =
      some (false, false, [.result ⟨0x30, .openFailed, none⟩]) := by decide

/-- PE-31. -/
theorem test_reset_in_flight :
    (after .reset { flying .rspWait 2 5 true with rxbuf := [0x02], rxOverflow := true, txlog := [[0x41]] }).map
        (fun t => decide (t = { ex with txlog := [[0x41]] })) = some true := by decide

/-- PE-30, through the step. -/
theorem test_step_illegal_opcode :
    (match step (ex.withFetchWord 8 0x13) with
      | .next t => t.results
      | .fault _ => []
      | .refused _ => []) = [⟨0x13, .illegalOpcode, none⟩] := by decide

/-- R19: an operand outside its type gets no step. -/
theorem test_step_refuses_width_zero :
    (match step (ex.deliver ⟨0x02, [.nat 5, .nat 0]⟩) with
      | .next _ => none
      | .fault _ => none
      | .refused r => some r) = some (.operandOutsideType 0x02) := by decide

/-- R163: 38 bytes without a complete candidate exceed a cap of 37. The bytes after the dropped start sentinel hold no other. -/
theorem test_rxChunk_resync :
    (after (.rxChunk (vF1.set 35 0x04 ++ [0xFF])) smallBuffer).map (fun t => (t.rxbuf, t.rxOverflow, t.txlog)) =
      some ([], true, []) := by decide

/-! ### Witnesses: for each obligation with hypotheses, values that meet them -/

/-- Meets the hypotheses of `Obligations.StepRunsTheDecodedEvent`, clause by clause at the ends of their ranges. -/
theorem witness_StepRunsTheDecodedEvent :
    (ex.deliver ⟨0x42, []⟩).input = ⟨0x42, []⟩ :: [] ∧ decode ⟨0x42, []⟩ = .ok .tick := ⟨rfl, rfl⟩

/-- Meets the hypotheses of `Obligations.NoEventNoChange`, clause by clause at the ends of their ranges. -/
theorem witness_NoEventNoChange :
    State.reset.input = [] := rfl

/-- Meets the hypotheses of `Obligations.IllegalOpcodeIsReported`, clause by clause at the ends of their ranges. -/
theorem witness_IllegalOpcodeIsReported :
    (ex.deliver ⟨0x13, []⟩).input = ⟨0x13, []⟩ :: [] ∧ (∀ o ∈ Opcode.all, o.byte ≠ 0x13) ∧
      (∀ o ∈ Opcode.all, o.byte ≠ 0x00) ∧ (∀ o ∈ Opcode.all, o.byte ≠ 0xFF) := by decide

/-- `Opcode.all` holds every opcode, so the witness of `Obligations.IllegalOpcodeIsReported` covers every `o`. -/
theorem witness_IllegalOpcodeIsReported_all :
    ∀ o : Opcode, o ∈ Opcode.all := by intro o; cases o <;> decide

/-- Meets the hypotheses of `Obligations.DecodeOfEncodeIsTheEvent`, clause by clause at the ends of their ranges. -/
theorem witness_DecodeOfEncodeIsTheEvent :
    (Instr.encNum 4294967295 255).wellFormed = true ∧ (Instr.encNum 4294967295 255).fitsWire = true ∧
      (Instr.encText [] 1 0).wellFormed = true ∧ (Instr.encText [] 1 0).fitsWire = true := by decide

/-- Meets the hypotheses of `Obligations.EncodeOfDecodeIsTheBytes`, clause by clause at the ends of their ranges. -/
theorem witness_EncodeOfDecodeIsTheBytes :
    decodeWire [0x02, 0xFF, 0xFF, 0xFF, 0xFF, 0xFE, 0x42] = .ok (.encNum 4294967295 255, [0x42]) := rfl

/-- Meets the hypotheses of `Obligations.EncNumIsTheDecimalField`, clause by clause at the ends of their ranges. -/
theorem witness_EncNumIsTheDecimalField :
    (1 ≤ 1 ∧ 255 ≤ 255) ∧ (99 < 10 ^ 2 ∧ truncating.params.overflowPolicy = .truncateHigh) ∧
      (10 ^ 2 ≤ 100 ∧ ex.params.overflowPolicy = .reject) := by decide

/-- Meets the hypotheses of `Obligations.DecNumIsThePositionalSum`, clause by clause at the ends of their ranges. -/
theorem witness_DecNumIsThePositionalSum :
    (clean [0x30, 0x39] ≠ [] ∧ ∀ b ∈ clean [0x30, 0x39], 0x30 ≤ b.toNat ∧ b.toNat ≤ 0x39) ∧
      clean [0x00, 0x20] = [] ∧ (∃ b ∈ clean [0x2F], b.toNat < 0x30 ∨ 0x39 < b.toNat) ∧
      (∃ b ∈ clean [0x3A], b.toNat < 0x30 ∨ 0x39 < b.toNat) := by decide

/-- Meets the hypotheses of `Obligations.ErrLookupIsTheTableMessage`, clause by clause at the ends of their ranges. -/
theorem witness_ErrLookupIsTheTableMessage :
    ([0x30] : Bytes).length ≠ 2 ∧ ([0x30, 0x37, 0x30] : Bytes).length ≠ 2 ∧
      ex.params.errTable.lookup (0x30, 0x37) = some [0x43, 0x41, 0x52, 0x44, 0x20, 0x45, 0x58, 0x50, 0x49, 0x52, 0x45, 0x44] ∧
      ex.params.errTable.lookup (0x39, 0x39) = none := by decide

/-- Meets the hypotheses of `Obligations.DecNumOfEncNum`, clause by clause at the ends of their ranges. -/
theorem witness_DecNumOfEncNum :
    1 ≤ 2 ∧ encNumField .reject 99 2 = .ok [0x39, 0x39] ∧ encNumField .truncateHigh 100 2 = .ok [0x30, 0x30] := ⟨by decide, rfl, rfl⟩

/-- Meets the hypotheses of `Obligations.XorLaws`, clause by clause at the ends of their ranges. -/
theorem witness_XorLaws :
    0 < tid.length ∧ 7 < tid.length ∧ tid.length = 8 ∧ 0 < 8 ∧ 7 < 8 := by decide

/-- Meets the hypotheses of `Obligations.CleanOfEncText`, clause by clause at the ends of their ranges. -/
theorem witness_CleanOfEncText :
    ((vF1.drop 17).take 16).length = 17 - 1 ∧ tid.length ≤ 16 ∧ 0 ∉ tid ∧ (∀ b, tid.head? = some b → isWS b = false) ∧
      (∀ b, tid.getLast? = some b → isWS b = false) ∧ 16 < (tid ++ tid ++ [0x20]).length := by
  refine ⟨by decide, by decide, by decide, ?_, ?_, by decide⟩
  · intro b h
    obtain rfl : (0x54 : Byte) = b := by simpa [tid] using h
    decide
  · intro b h
    obtain rfl : (0x31 : Byte) = b := by simpa [tid] using h
    decide

/-- Meets the hypotheses of `Obligations.MemReadOfMemWrite`, clause by clause at the ends of their ranges. -/
theorem witness_MemReadOfMemWrite :
    6 + ([0x41, 0x42] : Bytes).length ≤ tid.length ∧ (4 + 2 ≤ 6) ∧ (0 + ([0x41, 0x42] : Bytes).length ≤ 2) := by decide

/-- Meets the hypotheses of `Obligations.BuildFrameLaysOutTheFrame`, clause by clause at the ends of their ranges. -/
theorem witness_BuildFrameLaysOutTheFrame :
    (ts.take 13).length ≠ 14 ∧ (ts ++ [0x30]).length ≠ 14 ∧ ts.length = 14 ∧
      65535 < (List.replicate 65536 (0x78 : Byte)).length ∧ (List.replicate 65535 (0x78 : Byte)).length ≤ 65535 := ⟨by decide, by decide, by decide, by rw [List.length_replicate]; omega, by rw [List.length_replicate]⟩

/-- Meets the hypotheses of `Obligations.ParseFrameChecksInOrder`, clause by clause at the ends of their ranges. -/
theorem witness_ParseFrameChecksInOrder :
    (vF1.take 36).length < 37 ∧ (37 ≤ (vF1.set 0 0x7F).length ∧ (vF1.set 0 0x7F).getD 0 0 ≠ Config.ex.stx) ∧
      (37 ≤ vF1.length ∧ vF1.getD 0 0 = Config.ex.stx ∧ 0 = (vF1.getD 33 0).toNat + 256 * (vF1.getD 34 0).toNat) ∧
      ((vF1 ++ [0x00]).getD 0 0 = Config.ex.stx ∧
        0 = ((vF1 ++ [0x00]).getD 33 0).toNat + 256 * ((vF1 ++ [0x00]).getD 34 0).toNat ∧
        (vF1 ++ [0x00]).length ≠ 37 + 0) ∧
      ((vF1.set 35 0x04).length = 37 + 0 ∧ (vF1.set 35 0x04).getD (35 + 0) 0 ≠ Config.ex.etx) ∧
      ((vF1.set 36 0x48).length = 37 + 0 ∧ (vF1.set 36 0x48).getD (35 + 0) 0 = Config.ex.etx ∧
        (vF1.set 36 0x48).getD (36 + 0) 0 ≠ ((vF1.set 36 0x48).take (36 + 0)).foldl (· ^^^ ·) 0) ∧
      (vF1.length = 37 + 0 ∧ vF1.getD (35 + 0) 0 = Config.ex.etx ∧
        vF1.getD (36 + 0) 0 = (vF1.take (36 + 0)).foldl (· ^^^ ·) 0) := by decide

/-- Meets the hypotheses of `Obligations.FrameValidIffThreeConditions`, clause by clause at the ends of their ranges. -/
theorem witness_FrameValidIffThreeConditions :
    37 ≤ vF1.length ∧ vF1.getD 0 0 = Config.ex.stx ∧ (parseFrameHdr Config.ex vF1).isValid = true := by decide

/-- Meets the hypotheses of `Obligations.FindPacketScansTheFirstCandidate`, clause by clause at the ends of their ranges. -/
theorem witness_FindPacketScansTheFirstCandidate :
    ex.params.stx ∉ ([0xFF, 0xFF] : Bytes) ∧ vF1.head? = some ex.params.stx ∧
      (vF1.take 34).length < 35 ∧ (vF1.take 34).head? = some ex.params.stx ∧
      (35 ≤ vF1.length ∧ 0 = (vF1.getD 33 0).toNat + 256 * (vF1.getD 34 0).toNat ∧ 37 + 0 ≤ vF1.length ∧
        vF1.getD (35 + 0) 0 = ex.params.etx) ∧
      ((vF1.take 36).length < 37 + 0 ∧ 35 ≤ (vF1.take 36).length) ∧ (vF1.set 35 0x04).getD (35 + 0) 0 ≠ ex.params.etx := by decide

/-- Meets the hypotheses of `Obligations.ParseOfBuild`, clause by clause at the ends of their ranges. -/
theorem witness_ParseOfBuild :
    buildFrameBytes Config.ex tid ts 0x42 [] = .ok vF1 := rfl

/-- Meets the hypotheses of `Obligations.OneFlippedBitIsDetected`, clause by clause at the ends of their ranges. -/
theorem witness_OneFlippedBitIsDetected :
    buildFrameBytes Config.ex tid ts 0x42 [] = .ok vF1 ∧ 0 < vF1.length ∧ 33 < vF1.length ∧ 35 + 0 < vF1.length ∧
      36 < vF1.length ∧ 0 < 8 ∧ 7 < 8 := ⟨rfl, by decide⟩

/-- Meets the hypotheses of `Obligations.ScannerFindsTheBuiltFrame`, clause by clause at the ends of their ranges. -/
theorem witness_ScannerFindsTheBuiltFrame :
    buildFrameBytes Config.ex tid ts 0x42 [] = .ok vF1 ∧ (1 ≤ 1 ∧ 1 < vF1.length) ∧ (1 ≤ 36 ∧ 36 < vF1.length) ∧
      Config.ex.stx ∉ ([0xFF, 0xFF] : Bytes) := ⟨rfl, by decide⟩

/-- Meets the hypotheses of `Obligations.CompleteCandidateCanOnlyFailItsChecksum`, clause by clause at the ends of their ranges. -/
theorem witness_CompleteCandidateCanOnlyFailItsChecksum :
    scanWindow Config.ex ([0xFF] ++ vF1) = ⟨.complete, 1, 37⟩ ∧
      scanWindow Config.ex (vF1.set 36 0x48) = ⟨.complete, 0, 37⟩ := by decide

/-- Meets the hypotheses of `Obligations.StalledCandidateStaysIncomplete`, clause by clause at the ends of their ranges. -/
theorem witness_StalledCandidateStaysIncomplete :
    scanWindow Config.ex (vF1.set 35 0x04) = ⟨.incomplete, 0, 0⟩ ∧ 35 ≤ (vF1.set 35 0x04).length - 0 ∧
      37 + rd16 (vF1.set 35 0x04) (0 + 33) ≤ (vF1.set 35 0x04).length - 0 := by decide

/-- Meets the hypotheses of `Obligations.ApprovalRequestIsTheFramedPayload`, clause by clause at the ends of their ranges. -/
theorem witness_ApprovalRequestIsTheFramedPayload :
    (ts.take 13).length ≠ 14 ∧ ts.length = 14 ∧ ex.params.overflowPolicy = .reject ∧ 10 ^ 10 ≤ 10000000000 ∧
      10 ^ 8 ≤ 100000000 ∧ 10 ^ 2 ≤ 100 ∧ truncating.params.overflowPolicy = .truncateHigh ∧
      9999999999 < 10 ^ 10 ∧ 99999999 < 10 ^ 8 ∧ 99 < 10 ^ 2 := by decide

/-- Meets the hypotheses of `Obligations.CancelRequestIsTheFramedPayload`, clause by clause at the ends of their ranges. -/
theorem witness_CancelRequestIsTheFramedPayload :
    (ts.take 13).length ≠ 14 ∧ ts.length = 14 ∧ (ts.take 8).length = ex.params.wOdate ∧
      (ts.take 6).length = ex.params.wOtime ∧ (ts.take 7).length ≠ ex.params.wOdate ∧
      99 < (Option.getD (some (List.replicate 100 (0x78 : Byte))) []).length ∧
      (Option.getD (some (List.replicate 99 (0x78 : Byte))) []).length ≤ 99 ∧
      ex.params.overflowPolicy = .reject ∧ 10 ^ 10 ≤ 10000000000 ∧ 9999999999 < 10 ^ 10 ∧ 99 < 10 ^ 2 := by decide

/-- Meets the hypotheses of `Obligations.ApprovalResponseApproved`, clause by clause at the ends of their ranges. -/
theorem witness_ApprovalResponseApproved :
    (approvalWidths ex.params.approvalLayout).sum = 153 ∧
      (vR1.take 152).length < (approvalWidths ex.params.approvalLayout).sum ∧
      (approvalWidths ex.params.approvalLayout).sum ≤ vR1.length ∧ vR1.getD 0 0 = ex.params.ttApproved := by decide

/-- Meets the hypotheses of `Obligations.ApprovalResponseRejected`, clause by clause at the ends of their ranges. -/
theorem witness_ApprovalResponseRejected :
    (approvalWidths ex.params.approvalLayout).sum ≤ vR2.length ∧ vR2.getD 0 0 ≠ ex.params.ttApproved ∧
      (clean (fieldSlice vR2 (approvalWidths ex.params.approvalLayout) 14)).take 3 = [0x2D, 0x30, 0x37] ∧
      ex.params.errTable.lookup (0x30, 0x37) ≠ none ∧ ex.params.errTable.lookup (0x39, 0x39) = none ∧
      clean (fieldSlice (vR2.take 133 ++ List.replicate 20 0x20) (approvalWidths ex.params.approvalLayout) 14) = [] := by decide

/-- Meets the hypotheses of `Obligations.KnownRejectCodeGivesTheTableMessage`, clause by clause at the ends of their ranges. -/
theorem witness_KnownRejectCodeGivesTheTableMessage :
    (approvalWidths ex.params.approvalLayout).sum ≤ vR2.length ∧ vR2.getD 0 0 = ex.params.ttRejected ∧
      (∀ b ∈ List.replicate 8 (0x00 : Byte), b = 0x20 ∨ b = 0) ∧
      fieldSlice vR2 (approvalWidths ex.params.approvalLayout) 14 =
        [0x2D, 0x30, 0x37, 0x53, 0x4F, 0x4D, 0x45, 0x20, 0x54, 0x45, 0x58, 0x54] ++ List.replicate 8 0x00 ∧
      ex.params.errTable.lookup (0x30, 0x37) = some [0x43, 0x41, 0x52, 0x44, 0x20, 0x45, 0x58, 0x50, 0x49, 0x52, 0x45, 0x44] := by decide

/-- Meets the hypotheses of `Obligations.CardInquiryResponseFields`, clause by clause at the ends of their ranges. -/
theorem witness_CardInquiryResponseFields :
    (cardInqWidths ex.params.cardInqLayout).sum = 57 ∧
      (vQ1.take 56).length < (cardInqWidths ex.params.cardInqLayout).sum ∧
      (cardInqWidths ex.params.cardInqLayout).sum ≤ vQ1.length := by decide

/-- Meets the hypotheses of `Obligations.DeviceCheckStatuses`, clause by clause at the ends of their ranges. -/
theorem witness_DeviceCheckStatuses :
    ([0x4F, 0x4F, 0x58] : Bytes).length < 4 := by decide

/-- Meets the hypotheses of `Obligations.CodecCommandsArePure`, clause by clause at the ends of their ranges. -/
theorem witness_CodecCommandsArePure :
    isCodec (.checksum [0x41]) = true ∧ isCodec (.decEventRsp []) = true ∧ idle.cfg = ex.cfg := by decide

/-- Meets the hypotheses of `Obligations.ConnectOpensTheChannel`, clause by clause at the ends of their ranges. -/
theorem witness_ConnectOpensTheChannel :
    idle.connected = true ∧ (opening.connected = false ∧ opening.opening = true) ∧
      (ex.connected = false ∧ ex.opening = false) := by decide

/-- Meets the hypotheses of `Obligations.OpenDoneCompletesTheConnect`, clause by clause at the ends of their ranges. -/
theorem witness_OpenDoneCompletesTheConnect :
    ex.opening = false ∧ opening.opening = true := by decide

/-- Meets the hypotheses of `Obligations.DisconnectCancelsAndCloses`, clause by clause at the ends of their ranges. -/
theorem witness_DisconnectCancelsAndCloses :
    opening.opening = true ∧ (ex.opening = false ∧ ex.connected = false) ∧
      (idle.opening = false ∧ idle.connected = true ∧ idle.phase = .idle) ∧
      ((flying .ackWait 1 0 true).opening = false ∧ (flying .ackWait 1 0 true).connected = true ∧
        (flying .ackWait 1 0 true).phase ≠ .idle) := by decide

/-- Meets the hypotheses of `Obligations.SendWritesOneFrameAtATime`, clause by clause at the ends of their ranges. -/
theorem witness_SendWritesOneFrameAtATime :
    ex.connected = false ∧ ((flying .txDrain 1 0 true).connected = true ∧ (flying .txDrain 1 0 true).phase ≠ .idle) ∧
      (idle.connected = true ∧ idle.phase = .idle) := by decide

/-- Meets the hypotheses of `Obligations.TxDoneStartsTheAckWait`, clause by clause at the ends of their ranges. -/
theorem witness_TxDoneStartsTheAckWait :
    idle.phase ≠ .txDrain ∧ (flying .txDrain 1 0 true).phase = .txDrain := by decide

/-- Meets the hypotheses of `Obligations.TickCountsInTheTwoWaits`, clause by clause at the ends of their ranges. -/
theorem witness_TickCountsInTheTwoWaits :
    idle.phase = .idle ∧ (flying .txDrain 1 0 true).phase = .txDrain ∧
      ((flying .ackWait 1 1 true).phase = .ackWait ∧
        (flying .ackWait 1 1 true).timer + 1 < (flying .ackWait 1 1 true).params.ackTimeout) ∧
      (flying .ackWait 1 2 true).params.ackTimeout ≤ (flying .ackWait 1 2 true).timer + 1 ∧
      ((flying .rspWait 1 8 true).phase = .rspWait ∧
        (flying .rspWait 1 8 true).timer + 1 < (flying .rspWait 1 8 true).params.rspTimeout) ∧
      (flying .rspWait 1 9 true).params.rspTimeout ≤ (flying .rspWait 1 9 true).timer + 1 := by decide

/-- Meets the hypotheses of `Obligations.HandshakeByteResolvesTheAckWait`, clause by clause at the ends of their ranges. -/
theorem witness_HandshakeByteResolvesTheAckWait :
    ex.connected = false ∧ (idle.connected = true ∧ (0x06 : Byte) = idle.params.ack ∧ (0x15 : Byte) = idle.params.nak ∧
        idle.phase ≠ .ackWait) ∧
      ((flying .ackWait 1 0 false).connected = true ∧ (flying .ackWait 1 0 false).phase = .ackWait ∧
        (flying .ackWait 1 0 false).expect = false) ∧
      (flying .ackWait 1 0 true).expect = true := by decide

/-- Meets the hypotheses of the first two clauses of `Obligations.ChunkIsAppendedAndReassembled`. -/
theorem witness_ChunkIsAppendedAndReassembled_plain :
    idle.connected = true ∧ ([0x02] : Bytes) ≠ [] ∧
      (∀ b : Byte, ([0x02] : Bytes) = [b] → b ≠ idle.params.ack ∧ b ≠ idle.params.nak) ∧
      idle.params.stx ∉ idle.rxbuf := by
  refine ⟨rfl, by decide, ?_, by decide⟩
  intro b h
  obtain rfl : (0x02 : Byte) = b := by simpa using h
  decide

/-- Meets the hypotheses of the three candidate clauses, at and just above the cap. -/
theorem witness_ChunkIsAppendedAndReassembled_candidate :
    ({ smallBuffer with rxbuf := [0xFF] ++ vF1 } : State).rxbuf = [0xFF] ++ vF1 ∧
      smallBuffer.params.stx ∉ ([0xFF] : Bytes) ∧ vF1.head? = some smallBuffer.params.stx ∧
      scanWindow smallBuffer.params vF1 = ⟨.complete, 0, 37⟩ ∧
      (scanWindow smallBuffer.params (vF1.set 35 0x04) = ⟨.incomplete, 0, 0⟩ ∧
        (vF1.set 35 0x04).length ≤ smallBuffer.params.rxbufCap) ∧
      (scanWindow smallBuffer.params (vF1.set 35 0x04 ++ [0xFF]) = ⟨.incomplete, 0, 0⟩ ∧
        smallBuffer.params.rxbufCap < (vF1.set 35 0x04 ++ [0xFF]).length) := by decide

/-- Meets the hypotheses of `Obligations.DispatchDeliversTheFrame`, clause by clause at the ends of their ranges. -/
theorem witness_DispatchDeliversTheFrame :
    (parseFrameHdr idle.params (vF1.set 36 0x48)).isValid = false ∧
      ((parseFrameHdr idle.params vEV).isValid = true ∧ (parseFrameHdr idle.params vEV).jc = idle.params.jcEventRsp) ∧
      ((parseFrameHdr idle.params vFR1).isValid = true ∧ (parseFrameHdr idle.params vFR1).jc ≠ idle.params.jcEventRsp ∧
        (flying .rspWait 1 0 true).phase = .rspWait ∧ idle.phase ≠ .rspWait) := by decide

/-- Meets the hypotheses of `Obligations.ReadRegShowsTheEngineState`, clause by clause at the ends of their ranges. -/
theorem witness_ReadRegShowsTheEngineState :
    5 < 6 := by decide

/-- Meets the hypotheses of `Obligations.EveryStepKeepsTheInvariants`, clause by clause at the ends of their ranges. -/
theorem witness_EveryStepKeepsTheInvariants :
    (flying .ackWait 3 2 true).Inv ∧
      ∃ t, step ((flying .ackWait 3 2 true).deliver ⟨0x42, []⟩) = .next t := by
  refine ⟨?_, _, rfl⟩
  constructor <;> decide

/-- Meets the hypotheses of `Obligations.EveryStepKeepsLogsAndTraceTogether`, clause by clause at the ends of their ranges. -/
theorem witness_EveryStepKeepsLogsAndTraceTogether :
    ({ idle with txlog := [[0x41]], trace := [.tx [0x41]] } : State).LogsMatchTrace ∧
      ∃ t, step (({ idle with txlog := [[0x41]], trace := [.tx [0x41]] } : State).deliver ⟨0x33, [.nat 0]⟩) = .next t := by
  refine ⟨?_, _, rfl⟩
  constructor <;> rfl

/-- Meets the hypotheses of `Obligations.LogsAreAppendOnly`, clause by clause at the ends of their ranges. -/
theorem witness_LogsAreAppendOnly :
    ∃ t, step ((flying .ackWait 1 2 true).deliver ⟨0x42, []⟩) = .next t ∧ t.txlog = [[0x41]] := ⟨_, rfl, rfl⟩

/-- Meets the hypotheses of `Obligations.NoEventChangesTheConfiguration`, clause by clause at the ends of their ranges. -/
theorem witness_NoEventChangesTheConfiguration :
    ∃ t, exec (.rxChunk [0x15]) (flying .ackWait 1 0 true) = .next t := ⟨_, rfl⟩

/-- Meets the hypotheses of `Obligations.OneResultForEachSendAndConnect`, clause by clause at the ends of their ranges. -/
theorem witness_OneResultForEachSendAndConnect :
    (∃ t, exec (.send [0x41] true) idle = .next t) ∧ Instr.send [0x41] true ≠ .reset := ⟨⟨_, rfl⟩, by decide⟩

/-- Meets the hypotheses of `Obligations.SendEndsWithinItsTickBound`, clause by clause at the ends of their ranges. -/
theorem witness_SendEndsWithinItsTickBound :
    (flying .ackWait 1 2 true).Inv ∧ (flying .ackWait 1 2 true).phase ≠ .idle ∧
      ∃ t, exec .tick (flying .ackWait 1 2 true) = .next t ∧ t.phase = .txDrain := by
  refine ⟨?_, by decide, _, rfl, rfl⟩
  constructor <;> decide

/-- Meets the hypotheses of `Obligations.PhaseChangesOnlyByTheTable`, clause by clause at the ends of their ranges. -/
theorem witness_PhaseChangesOnlyByTheTable :
    (∃ t, exec (.send [0x41] true) idle = .next t ∧ t.phase ≠ idle.phase) ∧
      ∃ t, exec .tick (flying .rspWait 1 9 true) = .next t ∧ t.phase ≠ .rspWait :=
  ⟨⟨_, rfl, by decide⟩, ⟨_, rfl, by decide⟩⟩

/-- Meets the hypotheses of `Obligations.PhaseChangesOnlyByTheTable` in the row of a response frame. -/
theorem witness_PhaseChangesOnlyByTheTable_response :
    (after (.rxChunk vFR1) (flying .rspWait 1 4 true)).map (fun t => decide (t.phase ≠ .rspWait)) = some true := by
  decide

/-- Meets the hypotheses of `Obligations.WaitsExpireOnTheirLastTick`, clause by clause at the ends of their ranges. -/
theorem witness_WaitsExpireOnTheirLastTick :
    ({ flying .ackWait 1 0 true with input := List.replicate 3 ⟨0x42, []⟩ ++ [] } : State).input =
        List.replicate 3 ⟨0x42, []⟩ ++ [] ∧
      ((flying .ackWait 1 0 true).phase = .ackWait ∧
        (flying .ackWait 1 0 true).timer + 2 < (flying .ackWait 1 0 true).params.ackTimeout ∧
        (flying .ackWait 1 0 true).timer + 3 = (flying .ackWait 1 0 true).params.ackTimeout) ∧
      ((flying .rspWait 1 0 true).phase = .rspWait ∧
        (flying .rspWait 1 0 true).timer + 9 < (flying .rspWait 1 0 true).params.rspTimeout ∧
        (flying .rspWait 1 0 true).timer + 10 = (flying .rspWait 1 0 true).params.rspTimeout) := by decide

/-- Meets the hypotheses of `Obligations.NackAndTimeoutRaceIsBenign`, clause by clause at the ends of their ranges. -/
theorem witness_NackAndTimeoutRaceIsBenign :
    (flying .ackWait 1 2 true).connected = true ∧ (flying .ackWait 1 2 true).phase = .ackWait ∧
      (flying .ackWait 1 2 true).timer + 1 = (flying .ackWait 1 2 true).params.ackTimeout := by decide

end Sys2Proof.Tests
end

/-! PROOF. The two statements of spec/00_scope.md: which records a step refuses (R19, R194), and the read-after-write law
of the byte-string primitives (R14). -/

namespace Sys2Proof.Machine

/-! ### What a read and a write of a byte string do, byte by byte (R14) -/

theorem memRead_eq (s : Bytes) (a n : Nat) : memRead s a n = (s.drop a).take n := by
  rw [memRead, slice_eq, Nat.add_sub_cancel_left]

theorem getElem?_memRead (s : Bytes) (a n i : Nat) : (memRead s a n)[i]? = if i < n then s[a + i]? else none := by
  rw [memRead_eq, List.getElem?_take, List.getElem?_drop]

theorem length_memWrite {s v : Bytes} {off : Nat} (h : off + v.length ≤ s.length) :
    (memWrite s off v).length = s.length := by
  simp only [memWrite, List.length_append, List.length_take, List.length_drop]
  omega

/-- A write replaces the bytes of its range and no other byte. -/
theorem getElem?_memWrite {s : Bytes} {off : Nat} (h : off ≤ s.length) (v : Bytes) (i : Nat) :
    (memWrite s off v)[i]? = if off ≤ i ∧ i < off + v.length then v[i - off]? else s[i]? := by
  have hlen : (s.take off).length = off := List.length_take_of_le h
  rw [memWrite, List.append_assoc]
  rcases Nat.lt_or_ge i off with hbefore | hoff
  · rw [List.getElem?_append_left (by omega), List.getElem?_take_of_lt hbefore, if_neg (by omega)]
  rw [List.getElem?_append_right (by omega), hlen]
  rcases Nat.lt_or_ge i (off + v.length) with hin | hafter
  · rw [List.getElem?_append_left (by omega), if_pos ⟨hoff, hin⟩]
  · rw [List.getElem?_append_right (by omega), List.getElem?_drop, if_neg (by omega)]
    congr 1
    omega

theorem memRead_memWrite_same {s : Bytes} {off : Nat} (h : off ≤ s.length) (v : Bytes) :
    memRead (memWrite s off v) off v.length = v := by
  refine List.ext_getElem? fun i => ?_
  rw [getElem?_memRead, getElem?_memWrite h]
  rcases Nat.lt_or_ge i v.length with hi | hi
  · rw [if_pos hi, if_pos (by omega), Nat.add_sub_cancel_left]
  · rw [if_neg (by omega), List.getElem?_eq_none hi]

/-- A range that shares no byte with the range written reads what it read before. -/
theorem memRead_memWrite_disjoint {s v : Bytes} {off a n : Nat} (h : off ≤ s.length)
    (hd : a + n ≤ off ∨ off + v.length ≤ a) : memRead (memWrite s off v) a n = memRead s a n := by
  refine List.ext_getElem? fun i => ?_
  rw [getElem?_memRead, getElem?_memRead, getElem?_memWrite h]
  rcases Nat.lt_or_ge i n with hi | hi
  · rw [if_neg (by omega : ¬(off ≤ a + i ∧ a + i < off + v.length))]
  · rw [if_neg (by omega), if_neg (by omega)]

/-- Settles O20, from the bytes of a written string. -/
theorem memReadOfMemWrite : Obligations.MemReadOfMemWrite := by
  intro s v off h
  have hoff : off ≤ s.length := by omega
  exact ⟨length_memWrite h, memRead_memWrite_same hoff v, fun _ _ hd => memRead_memWrite_disjoint hoff hd⟩

/-! ### What the decoder refuses (R19, R56, R78) -/

/-- The decoder takes every operand list that is of the types of its row. -/
theorem exists_decodeOperands {o : Opcode} {xs : List Operand} (h : conforms o.signature xs = true) :
    ∃ i, decodeOperands o xs = some i := by
  cases o <;> simp only [Opcode.signature, conforms_cons, conforms_nil, Operand.hasType_bytes,
    Operand.hasType_bytesN, Operand.hasType_byte, Operand.hasType_nat, Operand.hasType_width, Operand.hasType_bool,
    Operand.hasType_table, Operand.hasType_optBytes, Operand.hasType_optNat, exists_eq_right_right, ↓existsAndEq,
    and_true, true_and, exists_and_right] at h
  case encNum =>
    obtain ⟨_, ⟨_, rfl⟩, hw⟩ := h
    exact ⟨_, if_pos hw⟩
  case encText =>
    obtain ⟨_, ⟨_, _, rfl⟩, hw⟩ := h
    exact ⟨_, if_pos hw⟩
  case buildCancelReq =>
    obtain ⟨_, _, _, _, _, _, _, _, _, _, _, _, info, rfl⟩ := h
    cases info <;> exact ⟨_, rfl⟩
  case connect =>
    obtain ⟨_, baud, rfl⟩ := h
    cases baud <;> exact ⟨_, rfl⟩
  case buildApprovalReq =>
    obtain ⟨_, _, _, _, _, _, _, _, rfl⟩ := h
    exact ⟨_, rfl⟩
  case buildFrame =>
    obtain ⟨_, _, _, _, rfl⟩ := h
    exact ⟨_, rfl⟩
  case classify | send =>
    obtain ⟨_, _, rfl⟩ := h
    exact ⟨_, rfl⟩
  case disconnect | tick | reset =>
    subst h
    exact ⟨_, rfl⟩
  all_goals
    obtain ⟨_, rfl⟩ := h
    exact ⟨_, rfl⟩

/-- What the decoder makes of a record: an event, an illegal opcode, or operands outside the types of a listed row. -/
theorem decode_cases (r : EventRecord) :
    (∃ i, decode r = .ok i) ∨ decode r = .error (.illegalOpcode r.opcode) ∨
      ∃ o : Opcode, o.byte = r.opcode ∧ conforms o.signature r.operands = false ∧
        decode r = .error (.operandOutsideType r.opcode) := by
  cases ho : Opcode.ofByte r.opcode with
  | none => exact .inr (.inl (by simp only [decode, ho]))
  | some o =>
    cases hx : decodeOperands o r.operands with
    | some i => exact .inl ⟨i, by simp only [decode, ho, hx]⟩
    | none =>
      have hc : conforms o.signature r.operands = false := by
        refine Bool.eq_false_iff.mpr fun hc => ?_
        obtain ⟨i, hi⟩ := exists_decodeOperands hc
        exact Option.some_ne_none i (hi.symm.trans hx)
      exact .inr (.inr ⟨o, Opcode.byte_of_ofByte ho, hc, by simp only [decode, ho, hx]⟩)

/-! ### One step, by what the input holds (R20, R78, R19, R216) -/

theorem step_of_input_nil {s : State} (h : s.input = []) : step s = .next s := by
  simp only [step, h]

theorem step_of_decode_ok {s : State} {r : EventRecord} {rest : List EventRecord} {i : Instr}
    (h : s.input = r :: rest) (hd : decode r = .ok i) : step s = exec i (s.takeRecord rest) := by
  simp only [step, h, hd]

theorem step_of_illegalOpcode {s : State} {r : EventRecord} {rest : List EventRecord} {op : Byte}
    (h : s.input = r :: rest) (hd : decode r = .error (.illegalOpcode op)) :
    step s = .next ((s.takeRecord rest).takeIllegalOpcode op) := by
  simp only [step, h, hd]

theorem step_of_operandOutsideType {s : State} {r : EventRecord} {rest : List EventRecord} {op : Byte}
    (h : s.input = r :: rest) (hd : decode r = .error (.operandOutsideType op)) :
    step s = .refused (.operandOutsideType op) := by
  simp only [step, h, hd]

/-- Settles O5, by what the next record decodes to. -/
theorem onlyIllTypedRecordsAreRefused : Obligations.OnlyIllTypedRecordsAreRefused := by
  intro s
  cases h : s.input with
  | nil => exact .inl ⟨s, step_of_input_nil h⟩
  | cons r rest =>
    obtain ⟨i, hd⟩ | hd | ⟨o, ho, hc, hd⟩ := decode_cases r
    · rw [step_of_decode_ok h hd]
      exact .inl (exec_next i _)
    · exact .inl ⟨_, step_of_illegalOpcode h hd⟩
    · exact .inr ⟨r, rest, o, rfl, ho, hc, step_of_operandOutsideType h hd⟩

end Sys2Proof.Machine

/-! PROOF. The statements of spec/10_state.md: a step runs the decoded event (R20), a codec command only reports (R21,
R80), the logs grow only (R31), the invariants hold at reset and after every step (R33), the configuration is fixed
(R36), and the reset state (R39). -/

namespace Sys2Proof.Machine

/-! ### A step, by what it took (R20) -/

/-- Everything a step with a next state can be: a wait, an event, or a reported illegal opcode. -/
theorem step_next_cases {s t : State} (h : step s = .next t) :
    t = s ∨ ∃ r rest, s.input = r :: rest ∧
      ((∃ i, decode r = .ok i ∧ exec i (s.takeRecord rest) = .next t) ∨
        t = (s.takeRecord rest).takeIllegalOpcode r.opcode) := by
  cases hin : s.input with
  | nil =>
    rw [step_of_input_nil hin] at h
    cases h
    exact .inl rfl
  | cons r rest =>
    refine .inr ⟨r, rest, rfl, ?_⟩
    obtain ⟨i, hd⟩ | hd | ⟨o, -, -, hd⟩ := decode_cases r
    · rw [step_of_decode_ok hin hd] at h
      exact .inl ⟨i, hd, h⟩
    · rw [step_of_illegalOpcode hin hd] at h
      cases h
      exact .inr rfl
    · rw [step_of_operandOutsideType hin hd] at h
      cases h

/-- What taking a record, one more result and every event keep, a step keeps. -/
theorem step_induct (P : State → Prop) (htake : ∀ s rest, P s → P (s.takeRecord rest))
    (hresult : ∀ s r, P s → P (s.result r)) (hexec : ∀ i s t, P s → exec i s = .next t → P t) {s t : State}
    (hs : P s) (h : step s = .next t) : P t := by
  obtain rfl | ⟨r, rest, -, ⟨i, -, he⟩ | rfl⟩ := step_next_cases h
  · exact hs
  · exact hexec i _ t (htake s rest hs) he
  · exact hresult _ _ (htake s rest hs)

/-- Settles O1, by the equation of a step whose record decodes. -/
theorem stepRunsTheDecodedEvent : Obligations.StepRunsTheDecodedEvent :=
  fun _ _ _ _ hin hd => step_of_decode_ok hin hd

/-! ### What a codec command does (R21, R80) -/

/-- The codec command `i` answers `answer` of the parameters, an output or a code other than OK, and does no
more. -/
def CodecAnswers (i : Instr) (answer : Params → Except ResultCode Out) : Prop :=
  (∀ p, answer p ≠ .error .ok) ∧ ∀ s, exec i s = .next (s.answer i.opcode.byte (answer s.params))

theorem codecAnswers_ok {i : Instr} (out : Params → Out)
    (h : ∀ s, exec i s = .next (s.succeed i.opcode.byte (out s.params))) : ∃ answer, CodecAnswers i answer :=
  ⟨fun p => .ok (out p), nofun, h⟩

theorem map_ne_error_ok {α β : Type} {r : Except ResultCode α} (f : α → β) (h : r ≠ .error .ok) :
    r.map f ≠ .error .ok := by
  cases r with
  | ok a => nofun
  | error e => exact fun he => h (congrArg _ (Except.error.inj he))

theorem encNumField_ne_error_ok {policy : OverflowPolicy} {v w : Nat} : encNumField policy v w ≠ .error .ok := by
  unfold encNumField
  simp only
  split
  · simp
  · cases policy <;> simp

theorem encNumFields_ne_error_ok {policy : OverflowPolicy} {l : List (Nat × Nat)} :
    encNumFields policy l ≠ .error .ok := by
  induction l with
  | nil => simp [encNumFields]
  | cons x l ih =>
    have hx : encNumField policy x.1 x.2 ≠ .error .ok := encNumField_ne_error_ok
    simp only [encNumFields]
    cases h : encNumField policy x.1 x.2 with
    | error e => simpa [h] using hx
    | ok f =>
      cases hl : encNumFields policy l with
      | error e => simpa [hl] using ih
      | ok fs => simp

theorem errLookupOut_ne_error_ok {p : Params} {code : Bytes} : errLookupOut p code ≠ .error .ok := by
  unfold errLookupOut
  split
  · simp
  · split <;> simp

theorem buildFrameBytes_ne_error_ok {p : Params} {tid ts : Bytes} {jc : Byte} {payload : Bytes} :
    buildFrameBytes p tid ts jc payload ≠ .error .ok := by
  unfold buildFrameBytes
  split_ifs <;> simp

theorem buildApprovalFrame_ne_error_ok {p : Params} {tid ts : Bytes} {tt : Byte} {amount tax charge count : Nat}
    {sig : Byte} : buildApprovalFrame p tid ts tt amount tax charge count sig ≠ .error .ok := by
  unfold buildApprovalFrame
  split
  · simp
  · split
    · rename_i h
      exact h ▸ encNumFields_ne_error_ok
    · exact buildFrameBytes_ne_error_ok

theorem buildCancelFrame_ne_error_ok {p : Params} {tid ts : Bytes} {ct tt : Byte} {amount tax charge count : Nat}
    {sig : Byte} {apprno odate otime : Bytes} {info : Option Bytes} :
    buildCancelFrame p tid ts ct tt amount tax charge count sig apprno odate otime info ≠ .error .ok := by
  unfold buildCancelFrame
  simp only
  split_ifs
  · simp
  · simp
  · split
    · rename_i h
      exact h ▸ encNumFields_ne_error_ok
    · split
      · rename_i h
        exact h ▸ encNumField_ne_error_ok
      · exact buildFrameBytes_ne_error_ok

theorem decApprovalOut_ne_error_ok {p : Params} {payload : Bytes} : decApprovalOut p payload ≠ .error .ok := by
  unfold decApprovalOut
  split
  · simp
  · split <;> simp

theorem decCardInqOut_ne_error_ok {p : Params} {payload : Bytes} : decCardInqOut p payload ≠ .error .ok := by
  unfold decCardInqOut
  split <;> simp

theorem decDevchkOut_ne_error_ok {p : Params} {payload : Bytes} : decDevchkOut p payload ≠ .error .ok := by
  unfold decDevchkOut
  split <;> simp

theorem decEventOut_ne_error_ok {p : Params} {payload : Bytes} : decEventOut p payload ≠ .error .ok := by
  unfold decEventOut
  split <;> simp

/-- Every codec command answers from its operands and the parameters. -/
theorem exec_codec {i : Instr} (hi : isCodec i = true) : ∃ answer, CodecAnswers i answer := by
  cases i with
  | checksum data => exact codecAnswers_ok (fun _ => .bcc (xorBytes data)) fun _ => rfl
  | encNum v w =>
    exact ⟨fun p => (encNumField p.overflowPolicy v w).map .field,
      fun _ => map_ne_error_ok _ (encNumField_ne_error_ok), fun _ => rfl⟩
  | encText text w pad => exact codecAnswers_ok (fun _ => .field (encTextField text w pad)) fun _ => rfl
  | decAscii region => exact codecAnswers_ok (fun _ => .text (clean region)) fun _ => rfl
  | decLocal region => exact codecAnswers_ok (fun p => .localText (decLocalField p region)) fun _ => rfl
  | decNum region => exact codecAnswers_ok (fun _ => .num (decNumField region)) fun _ => rfl
  | classify table code => exact codecAnswers_ok (fun p => .classified (classifyCode p table code)) fun _ => rfl
  | errLookup code => exact ⟨fun p => errLookupOut p code, fun _ => errLookupOut_ne_error_ok, fun _ => rfl⟩
  | buildFrame tid ts jc payload =>
    exact ⟨fun p => (buildFrameBytes p tid ts jc payload).map .frame,
      fun _ => map_ne_error_ok _ (buildFrameBytes_ne_error_ok), fun _ => rfl⟩
  | parseFrame data => exact codecAnswers_ok (fun p => .parsed (parseFrameHdr p data)) fun _ => rfl
  | findPacket window => exact codecAnswers_ok (fun p => .scan (scanWindow p window)) fun _ => rfl
  | buildApprovalReq tid ts tt amount tax charge count sig =>
    exact ⟨fun p => (buildApprovalFrame p tid ts tt amount tax charge count sig).map .frame,
      fun _ => map_ne_error_ok _ (buildApprovalFrame_ne_error_ok), fun _ => rfl⟩
  | buildCancelReq tid ts ct tt amount tax charge count sig apprno odate otime info =>
    exact ⟨fun p => (buildCancelFrame p tid ts ct tt amount tax charge count sig apprno odate otime info).map .frame,
      fun _ => map_ne_error_ok _ (buildCancelFrame_ne_error_ok), fun _ => rfl⟩
  | decApprovalRsp payload =>
    exact ⟨fun p => decApprovalOut p payload, fun _ => decApprovalOut_ne_error_ok, fun _ => rfl⟩
  | decCardinqRsp payload =>
    exact ⟨fun p => decCardInqOut p payload, fun _ => decCardInqOut_ne_error_ok, fun _ => rfl⟩
  | decDevchkRsp payload =>
    exact ⟨fun p => decDevchkOut p payload, fun _ => decDevchkOut_ne_error_ok, fun _ => rfl⟩
  | decEventRsp payload =>
    exact ⟨fun p => decEventOut p payload, fun _ => decEventOut_ne_error_ok, fun _ => rfl⟩
  | connect | disconnect | send | readReg | rxChunk | txDone | tick | openDone | reset => cases hi

/-- Settles O38: the one result of a codec command is its answer from the parameters. -/
theorem codecCommandsArePure : Obligations.CodecCommandsArePure := by
  intro i hi s
  obtain ⟨answer, hne, he⟩ := exec_codec hi
  cases ha : answer s.params with
  | ok out =>
    refine ⟨.ok, some out, by simp, fun s' hs' => ?_⟩
    rw [he, State.params, hs', ha]
    rfl
  | error code =>
    refine ⟨code, none, ?_, fun s' hs' => ?_⟩
    · have hcode : code ≠ .ok := fun h => hne s.params (h ▸ ha)
      simpa using hcode
    · rw [he, State.params, hs', ha]
      rfl

/-! ### What each of the other events can do, by its conditions (R153 to R160, R164, R215) -/

variable {s t : State}

/-- A codec command appends one result. -/
theorem exec_codec_next {i : Instr} (hi : isCodec i = true) (he : exec i s = .next t) : ∃ r, t = s.result r := by
  obtain ⟨answer, -, h⟩ := exec_codec hi
  rw [h] at he
  cases ha : answer s.params <;> rw [ha] at he <;> cases he <;> exact ⟨_, rfl⟩

theorem exec_connect_cases {address : Bytes} {baud : Option Nat} (he : exec (.connect address baud) s = .next t) :
    (s.connected = true ∧ t = s.raiseError 0x30 .alreadyConnected) ∨
    (s.connected = false ∧ s.opening = true ∧ t = s.raiseError 0x30 .busy) ∨
    (s.connected = false ∧ s.opening = false ∧
      t = State.request (.openChannel address (baud.getD s.params.defaultBaud) s.params.lineParams)
        { s with opening := true }) := by
  simp only [exec, execConnect] at he
  split_ifs at he with hc ho <;> cases he <;> simp_all

theorem exec_disconnect_cases (he : exec .disconnect s = .next t) :
    (s.opening = true ∧
      t = ((State.raiseError 0x30 .disconnecting { s with opening := false }).request .close).succeed 0x31 .empty) ∨
    (s.opening = false ∧ s.connected = false ∧ t = s.succeed 0x31 .empty) ∨
    (s.opening = false ∧ s.connected = true ∧ ∃ u,
      ((s.phase ≠ .idle ∧ u = s.finishSend .disconnecting none) ∨ (s.phase = .idle ∧ u = s)) ∧
      t = ((State.request .close { u with connected := false, rxbuf := [] }).notify .disconnected).succeed 0x31
        .empty) := by
  simp only [exec, execDisconnect] at he
  split_ifs at he with ho hc hp <;> cases he <;> simp_all

theorem exec_send_cases {frame : Bytes} {expectResponse : Bool} (he : exec (.send frame expectResponse) s = .next t) :
    (s.connected = false ∧ t = s.raiseError 0x32 .notConnected) ∨
    (s.connected = true ∧ s.phase ≠ .idle ∧ t = s.raiseError 0x32 .busy) ∨
    (s.connected = true ∧ s.phase = .idle ∧
      t = State.writeFrame { s with txframe := frame, expect := expectResponse, attempt := 1 }) := by
  simp only [exec, execSend] at he
  split_ifs at he <;> cases he <;> simp_all

theorem exec_readReg_next {n : Nat} (he : exec (.readReg n) s = .next t) : ∃ r, t = s.result r := by
  simp only [exec, execReadReg] at he
  split at he <;> cases he <;> exact ⟨_, rfl⟩

theorem exec_rxChunk_cases {chunk : Bytes} (he : exec (.rxChunk chunk) s = .next t) :
    ((s.connected = false ∨ chunk = []) ∧ t = s) ∨
    (s.connected = true ∧ ∃ b, chunk = [b] ∧ (b = s.params.ack ∨ b = s.params.nak) ∧ t = s.handshake b) ∨
    (s.connected = true ∧ chunk ≠ [] ∧ (∀ b, chunk = [b] → b ≠ s.params.ack ∧ b ≠ s.params.nak) ∧
      t = State.reassemble { s with rxbuf := s.rxbuf ++ chunk }) := by
  simp only [exec, execRxChunk] at he
  split_ifs at he with hc hl hb <;> cases he
  · exact .inl ⟨.inl (by simpa using hc), rfl⟩
  · exact .inl ⟨.inr (List.eq_nil_of_length_eq_zero hl), rfl⟩
  · obtain ⟨b, rfl⟩ := List.length_eq_one_iff.1 hb.1
    exact .inr (.inl ⟨by simpa using hc, b, rfl, hb.2, rfl⟩)
  · refine .inr (.inr ⟨by simpa using hc, by simpa using hl, ?_, rfl⟩)
    rintro b rfl
    simpa using hb

theorem exec_txDone_cases {ok : Bool} (he : exec (.txDone ok) s = .next t) :
    (s.phase ≠ .txDrain ∧ t = s) ∨
    (s.phase = .txDrain ∧ ok = true ∧ t = { s with phase := .ackWait, timer := 0 }) ∨
    (s.phase = .txDrain ∧ ok = false ∧ t = s.finishSend .writeFailed none) := by
  simp only [exec, execTxDone] at he
  split_ifs at he <;> cases he <;> simp_all

theorem exec_tick_cases (he : exec .tick s = .next t) :
    ((s.phase = .idle ∨ s.phase = .txDrain) ∧ t = s) ∨
    (s.phase = .ackWait ∧ s.params.ackTimeout ≤ s.timer + 1 ∧ t = State.retry { s with timer := s.timer + 1 }) ∨
    (s.phase = .ackWait ∧ s.timer + 1 < s.params.ackTimeout ∧ t = { s with timer := s.timer + 1 }) ∨
    (s.phase = .rspWait ∧ s.params.rspTimeout ≤ s.timer + 1 ∧
      t = State.finishSend .responseTimeout none { s with timer := s.timer + 1 }) ∨
    (s.phase = .rspWait ∧ s.timer + 1 < s.params.rspTimeout ∧ t = { s with timer := s.timer + 1 }) := by
  simp only [exec, execTick] at he
  cases hp : s.phase <;> simp only [hp] at he
  case idle | txDrain =>
    cases he
    simp
  case ackWait | rspWait => split_ifs at he <;> cases he <;> simp_all

theorem exec_openDone_cases {ok : Bool} (he : exec (.openDone ok) s = .next t) :
    (s.opening = false ∧ t = s) ∨
    (s.opening = true ∧ ok = true ∧
      t = (State.notify .connected { s with opening := false, connected := true, rxbuf := [] }).succeed 0x30 .empty) ∨
    (s.opening = true ∧ ok = false ∧ t = State.raiseError 0x30 .openFailed { s with opening := false }) := by
  simp only [exec, execOpenDone] at he
  split_ifs at he <;> cases he <;> simp_all

theorem exec_reset_frame (he : exec .reset s = .next t) :
    t.EngineReset ∧ t.txlog = s.txlog ∧ t.chanreq = s.chanreq ∧ t.notes = s.notes ∧ t.results = s.results ∧
      t.trace = s.trace ∧ t.input = s.input ∧ t.cfg = s.cfg := by
  cases he
  exact ⟨⟨rfl, rfl, rfl, rfl, rfl, rfl, rfl, rfl, rfl⟩, rfl, rfl, rfl, rfl, rfl, rfl, rfl⟩

/-! ### What the shared procedures of the engine leave alone (R152, R159, R161) -/

theorem State.retry_frame (s : State) :
    s.retry.connected = s.connected ∧ s.retry.opening = s.opening ∧ s.retry.rxbuf = s.rxbuf ∧
      s.retry.cfg = s.cfg ∧ s.retry.input = s.input := by
  obtain ⟨-, e⟩ | ⟨-, e⟩ := s.retry_cases <;> simp [e]

theorem State.handshake_frame (s : State) (b : Byte) :
    (s.handshake b).connected = s.connected ∧ (s.handshake b).opening = s.opening ∧
      (s.handshake b).rxbuf = s.rxbuf ∧ (s.handshake b).cfg = s.cfg ∧ (s.handshake b).input = s.input := by
  obtain ⟨-, e⟩ | ⟨-, -, -, e⟩ | ⟨-, -, -, e⟩ | ⟨-, -, e⟩ := s.handshake_cases b <;> simp [e, State.retry_frame]

theorem State.reassemble_frame (s : State) :
    s.reassemble.connected = s.connected ∧ s.reassemble.opening = s.opening ∧ s.reassemble.cfg = s.cfg ∧
      s.reassemble.input = s.input :=
  State.reassemble_induct
    (fun t => t.connected = s.connected ∧ t.opening = s.opening ∧ t.cfg = s.cfg ∧ t.input = s.input)
    (fun _ _ h => h) (fun _ h => h) (fun u f h => by simpa [State.dispatch_frame u f] using h) s ⟨rfl, rfl, rfl, rfl⟩

/-! ### The configuration and the records to come (R36) -/

/-- Settles O55, event by event. -/
theorem noEventChangesTheConfiguration : Obligations.NoEventChangesTheConfiguration := by
  intro i s t he
  cases i
  case connect => obtain ⟨-, rfl⟩ | ⟨-, -, rfl⟩ | ⟨-, -, rfl⟩ := exec_connect_cases he <;> exact ⟨rfl, rfl⟩
  case disconnect =>
    obtain ⟨-, rfl⟩ | ⟨-, -, rfl⟩ | ⟨-, -, u, ⟨-, rfl⟩ | ⟨-, rfl⟩, rfl⟩ := exec_disconnect_cases he <;>
      exact ⟨rfl, rfl⟩
  case send => obtain ⟨-, rfl⟩ | ⟨-, -, rfl⟩ | ⟨-, -, rfl⟩ := exec_send_cases he <;> exact ⟨rfl, rfl⟩
  case readReg =>
    obtain ⟨r, rfl⟩ := exec_readReg_next he
    exact ⟨rfl, rfl⟩
  case rxChunk =>
    obtain ⟨-, rfl⟩ | ⟨-, b, -, -, rfl⟩ | ⟨-, -, -, rfl⟩ := exec_rxChunk_cases he
    · exact ⟨rfl, rfl⟩
    · obtain ⟨-, -, -, hcfg, hin⟩ := s.handshake_frame b
      exact ⟨hcfg, hin⟩
    · obtain ⟨-, -, hcfg, hin⟩ := State.reassemble_frame { s with rxbuf := _ }
      exact ⟨hcfg, hin⟩
  case txDone => obtain ⟨-, rfl⟩ | ⟨-, -, rfl⟩ | ⟨-, -, rfl⟩ := exec_txDone_cases he <;> exact ⟨rfl, rfl⟩
  case tick =>
    obtain ⟨-, rfl⟩ | ⟨-, -, rfl⟩ | ⟨-, -, rfl⟩ | ⟨-, -, rfl⟩ | ⟨-, -, rfl⟩ := exec_tick_cases he
    case inr.inl =>
      obtain ⟨-, -, -, hcfg, hin⟩ := State.retry_frame { s with timer := s.timer + 1 }
      exact ⟨hcfg, hin⟩
    all_goals exact ⟨rfl, rfl⟩
  case openDone => obtain ⟨-, rfl⟩ | ⟨-, -, rfl⟩ | ⟨-, -, rfl⟩ := exec_openDone_cases he <;> exact ⟨rfl, rfl⟩
  case reset =>
    obtain ⟨-, -, -, -, -, -, hin, hcfg⟩ := exec_reset_frame he
    exact ⟨hcfg, hin⟩
  all_goals
    obtain ⟨r, rfl⟩ := exec_codec_next rfl he
    exact ⟨rfl, rfl⟩

/-! ### The logs grow only (R31) -/

theorem State.AppendClosed.step {P : State → Prop} (hP : State.AppendClosed P) (hs : P s)
    (h : Sys2Proof.Machine.step s = .next t) : P t :=
  step_induct P (fun _ _ => hP.logsOnly _ _ rfl rfl rfl rfl rfl) hP.result (fun _ _ _ => hP.exec) hs h

theorem State.extends_refl (s : State) : s.Extends s :=
  ⟨List.prefix_rfl, List.prefix_rfl, List.prefix_rfl, List.prefix_rfl, List.prefix_rfl⟩

/-- Each append leaves the logs extensions of what they were. -/
theorem State.extends_appendClosed (s : State) : State.AppendClosed s.Extends where
  logsOnly _ _ htx hchan hnotes hresults htrace h :=
    ⟨htx ▸ h.tx, hchan ▸ h.chan, hnotes ▸ h.notes, hresults ▸ h.results, htrace ▸ h.trace⟩
  txEmit _ _ h := { h with tx := List.prefix_append_of_prefix h.tx, trace := List.prefix_append_of_prefix h.trace }
  request _ _ h := { h with chan := List.prefix_append_of_prefix h.chan, trace := List.prefix_append_of_prefix h.trace }
  notify _ _ h :=
    { h with
      notes := List.prefix_append_of_prefix h.notes, trace := List.prefix_append_of_prefix h.trace }
  result _ _ h :=
    { h with
      results := List.prefix_append_of_prefix h.results, trace := List.prefix_append_of_prefix h.trace }

/-- Settles O54: the four appends are all that writes the logs. -/
theorem logsAreAppendOnly : Obligations.LogsAreAppendOnly :=
  fun s _ h => s.extends_appendClosed.step s.extends_refl h

/-! ### The invariants, in two parts (R33) -/

/-- The part of the invariants about the connection and the receive buffer: (I1), (I2), (I8), (I9). -/
structure State.LinkInv (s : State) : Prop where
  notOpeningAndConnected : ¬(s.opening = true ∧ s.connected = true)
  inFlightConnected : s.phase ≠ .idle → s.connected = true
  rxbufBound : s.rxbuf.length ≤ s.params.rxbufCap
  rxbufStart : s.rxbuf = [] ∨ s.rxbuf.head? = some s.params.stx
  disconnectedEmpty : s.connected = false → s.rxbuf = []

/-- The part about the send state machine alone: (I3) to (I7), and R25. -/
structure State.SendInv (s : State) : Prop where
  idleIffNoAttempt : s.phase = .idle ↔ s.attempt = 0
  attemptBound : s.attempt ≤ s.params.maxAttempts
  idleExpect : s.phase = .idle → s.expect = false
  idleTxframe : s.phase = .idle → s.txframe = []
  noWaitNoTimer : s.phase = .idle ∨ s.phase = .txDrain → s.timer = 0
  ackTimerBound : s.phase = .ackWait → s.timer < s.params.ackTimeout
  rspTimerBound : s.phase = .rspWait → s.timer < s.params.rspTimeout

theorem State.inv_iff : s.Inv ↔ s.LinkInv ∧ s.SendInv := by
  constructor
  · intro h
    exact ⟨⟨h.notOpeningAndConnected, h.inFlightConnected, h.rxbufBound, h.rxbufStart, h.disconnectedEmpty⟩,
      ⟨h.idleIffNoAttempt, h.attemptBound, h.idleExpect, h.idleTxframe, h.noWaitNoTimer, h.ackTimerBound,
        h.rspTimerBound⟩⟩
  · rintro ⟨hl, hs⟩
    exact { hl, hs with }

/-! ### The connection part -/

theorem State.LinkInv.congr (h : s.LinkInv) (hconnected : t.connected = s.connected) (hopening : t.opening = s.opening)
    (hrxbuf : t.rxbuf = s.rxbuf) (hcfg : t.cfg = s.cfg) (hphase : t.phase ≠ .idle → s.connected = true) :
    t.LinkInv := by
  constructor <;> simp only [State.params, hconnected, hopening, hrxbuf, hcfg]
  · exact h.notOpeningAndConnected
  · exact hphase
  · exact h.rxbufBound
  · exact h.rxbufStart
  · exact h.disconnectedEmpty

theorem State.LinkInv.of_rxbuf_nil (hrxbuf : s.rxbuf = []) (hopening : ¬(s.opening = true ∧ s.connected = true))
    (hphase : s.phase ≠ .idle → s.connected = true) : s.LinkInv :=
  ⟨hopening, hphase, by simp [hrxbuf], .inl hrxbuf, fun _ => hrxbuf⟩

/-- With no connection there is no send in flight. -/
theorem State.LinkInv.phase_idle (h : s.LinkInv) (hc : s.connected = false) : s.phase = .idle :=
  not_not.1 fun hp => Bool.false_ne_true (hc.symm.trans (h.inFlightConnected hp))

/-- While a CONNECT opens there is no connection. -/
theorem State.LinkInv.not_connected (h : s.LinkInv) (ho : s.opening = true) : s.connected = false :=
  Bool.eq_false_iff.2 fun hc => h.notOpeningAndConnected ⟨ho, hc⟩

theorem State.LinkInv.not_opening (h : s.LinkInv) (hc : s.connected = true) : s.opening = false :=
  Bool.eq_false_iff.2 fun ho => h.notOpeningAndConnected ⟨ho, hc⟩

/-- Reassembly leaves a buffer that meets (I8), whatever the buffer was. -/
theorem State.reassemble_linkInv (hc : s.connected = true) (ho : s.opening = false) : s.reassemble.LinkInv := by
  obtain ⟨hconnected, hopening, hcfg, -⟩ := s.reassemble_frame
  obtain ⟨hbound, hstart⟩ := State.reassembleLoop_rxbuf (s.rxbuf.length + 1) s (Nat.lt_succ_self _)
  have hparams : s.reassemble.params = s.params := congrArg Cfg.params hcfg
  constructor
  · simp [hopening, ho]
  · simp [hconnected, hc]
  · rw [hparams]
    exact hbound
  · rw [hparams]
    exact hstart
  · simp [hconnected, hc]

/-! ### The send part -/

theorem State.SendInv.congr (h : s.SendInv) (hphase : t.phase = s.phase) (hattempt : t.attempt = s.attempt)
    (hexpect : t.expect = s.expect) (htxframe : t.txframe = s.txframe) (htimer : t.timer = s.timer)
    (hcfg : t.cfg = s.cfg) : t.SendInv := by
  constructor <;> simp only [State.params, hphase, hattempt, hexpect, htxframe, htimer, hcfg]
  · exact h.idleIffNoAttempt
  · exact h.attemptBound
  · exact h.idleExpect
  · exact h.idleTxframe
  · exact h.noWaitNoTimer
  · exact h.ackTimerBound
  · exact h.rspTimerBound

theorem State.SendInv.of_idle (hphase : s.phase = .idle) (hattempt : s.attempt = 0) (hexpect : s.expect = false)
    (htxframe : s.txframe = []) (htimer : s.timer = 0) : s.SendInv := by
  constructor <;> simp [hphase, hattempt, hexpect, htxframe, htimer]

/-- A send in flight on a legal attempt, with the timer at 0 in the drain and below the limit in a wait. -/
theorem State.SendInv.of_inFlight (hphase : s.phase ≠ .idle) (hpos : 0 < s.attempt)
    (hmax : s.attempt ≤ s.params.maxAttempts) (hdrain : s.phase = .txDrain → s.timer = 0)
    (hack : s.phase = .ackWait → s.timer < s.params.ackTimeout)
    (hrsp : s.phase = .rspWait → s.timer < s.params.rspTimeout) : s.SendInv where
  idleIffNoAttempt := ⟨fun h => absurd h hphase, fun h => absurd h hpos.ne'⟩
  attemptBound := hmax
  idleExpect h := absurd h hphase
  idleTxframe h := absurd h hphase
  noWaitNoTimer h := hdrain (h.resolve_left hphase)
  ackTimerBound := hack
  rspTimerBound := hrsp

theorem State.SendInv.attempt_pos (h : s.SendInv) (hp : s.phase ≠ .idle) : 0 < s.attempt :=
  Nat.pos_of_ne_zero fun h0 => hp (h.idleIffNoAttempt.2 h0)

/-- The end of a send leaves the IDLE values, from any state. -/
theorem State.finishSend_sendInv (s : State) (code : ResultCode) (resp : Option Response) :
    (s.finishSend code resp).SendInv :=
  .of_idle rfl rfl rfl rfl rfl

theorem State.writeFrame_sendInv (hpos : 0 < s.attempt) (hmax : s.attempt ≤ s.params.maxAttempts) :
    s.writeFrame.SendInv :=
  .of_inFlight (by simp) hpos hmax (fun _ => rfl) (by simp) (by simp)

/-- A retry is a legal attempt or the end of the send, from any state. -/
theorem State.retry_sendInv (s : State) : s.retry.SendInv := by
  obtain ⟨hlt, e⟩ | ⟨-, e⟩ := s.retry_cases <;> rw [e]
  · exact State.writeFrame_sendInv (Nat.succ_pos _) hlt
  · exact s.finishSend_sendInv _ _

theorem State.SendInv.handshake (h : s.SendInv) (b : Byte) : (s.handshake b).SendInv := by
  obtain ⟨-, e⟩ | ⟨hp, -, -, e⟩ | ⟨-, -, -, e⟩ | ⟨-, -, e⟩ := s.handshake_cases b <;> rw [e]
  · exact h
  · exact .of_inFlight (by simp) (h.attempt_pos (by simp [hp])) h.attemptBound (by simp) (by simp)
      fun _ => s.cfg.one_le_rspTimeout
  · exact s.finishSend_sendInv _ _
  · exact s.retry_sendInv

theorem State.SendInv.dispatch (h : s.SendInv) (f : Bytes) : (s.dispatch f).SendInv := by
  obtain ⟨-, e⟩ | ⟨-, e⟩ | ⟨-, -, e⟩ | ⟨-, e⟩ := s.dispatch_cases f <;> rw [e]
  · exact h.congr rfl rfl rfl rfl rfl rfl
  · exact h.congr rfl rfl rfl rfl rfl rfl
  · exact State.finishSend_sendInv _ _ _
  · exact h.congr rfl rfl rfl rfl rfl rfl

theorem State.SendInv.reassemble (h : s.SendInv) : s.reassemble.SendInv :=
  State.reassemble_induct State.SendInv (fun _ _ h => h.congr rfl rfl rfl rfl rfl rfl)
    (fun _ h => h.congr rfl rfl rfl rfl rfl rfl) (fun _ f h => h.dispatch f) s h

/-! ### Every event keeps the invariants -/

/-- The engine's reset values meet the invariants. -/
theorem State.EngineReset.inv (h : s.EngineReset) : s.Inv :=
  State.inv_iff.2 ⟨.of_rxbuf_nil h.rxbuf (by simp [h.opening]) (fun hp => absurd h.phase hp),
    .of_idle h.phase h.attempt h.expect h.txframe h.timer⟩

theorem State.Inv.takeRecord (h : s.Inv) (rest : List EventRecord) : (s.takeRecord rest).Inv := { h with }

theorem State.Inv.result (h : s.Inv) (r : ResultRec) : (s.result r).Inv := { h with }

theorem exec_connect_inv {address : Bytes} {baud : Option Nat} (h : s.Inv)
    (he : exec (.connect address baud) s = .next t) : t.Inv := by
  obtain ⟨hl, hs⟩ := State.inv_iff.1 h
  obtain ⟨-, rfl⟩ | ⟨-, -, rfl⟩ | ⟨hc, -, rfl⟩ := exec_connect_cases he
  · exact h.result _
  · exact h.result _
  · exact State.inv_iff.2 ⟨.of_rxbuf_nil (hl.disconnectedEmpty hc) (by simp [hc]) hl.inFlightConnected,
      hs.congr rfl rfl rfl rfl rfl rfl⟩

theorem exec_disconnect_inv (h : s.Inv) (he : exec .disconnect s = .next t) : t.Inv := by
  obtain ⟨hl, hs⟩ := State.inv_iff.1 h
  obtain ⟨ho, rfl⟩ | ⟨-, -, rfl⟩ | ⟨-, -, u, hu, rfl⟩ := exec_disconnect_cases he
  · exact State.inv_iff.2 ⟨.of_rxbuf_nil (hl.disconnectedEmpty (hl.not_connected ho)) (by simp) hl.inFlightConnected,
      hs.congr rfl rfl rfl rfl rfl rfl⟩
  · exact h.result _
  · have hidle : u.phase = .idle ∧ u.SendInv := by
      obtain ⟨-, rfl⟩ | ⟨hp, rfl⟩ := hu
      · exact ⟨rfl, s.finishSend_sendInv _ _⟩
      · exact ⟨hp, hs⟩
    exact State.inv_iff.2 ⟨.of_rxbuf_nil rfl (by simp) fun hp => absurd hidle.1 hp,
      hidle.2.congr rfl rfl rfl rfl rfl rfl⟩

theorem exec_send_inv {frame : Bytes} {expectResponse : Bool} (h : s.Inv)
    (he : exec (.send frame expectResponse) s = .next t) : t.Inv := by
  obtain ⟨hl, -⟩ := State.inv_iff.1 h
  obtain ⟨-, rfl⟩ | ⟨-, -, rfl⟩ | ⟨hc, -, rfl⟩ := exec_send_cases he
  · exact h.result _
  · exact h.result _
  · exact State.inv_iff.2 ⟨hl.congr rfl rfl rfl rfl fun _ => hc,
      State.writeFrame_sendInv Nat.one_pos s.cfg.one_le_maxAttempts⟩

theorem exec_rxChunk_inv {chunk : Bytes} (h : s.Inv) (he : exec (.rxChunk chunk) s = .next t) : t.Inv := by
  obtain ⟨hl, hs⟩ := State.inv_iff.1 h
  obtain ⟨-, rfl⟩ | ⟨hc, b, -, -, rfl⟩ | ⟨hc, -, -, rfl⟩ := exec_rxChunk_cases he
  · exact h
  · obtain ⟨hconnected, hopening, hrxbuf, hcfg, -⟩ := s.handshake_frame b
    exact State.inv_iff.2 ⟨hl.congr hconnected hopening hrxbuf hcfg fun _ => hc, hs.handshake b⟩
  · have hgrown : State.SendInv { s with rxbuf := s.rxbuf ++ chunk } := hs.congr rfl rfl rfl rfl rfl rfl
    exact State.inv_iff.2 ⟨State.reassemble_linkInv hc (hl.not_opening hc), hgrown.reassemble⟩

theorem exec_txDone_inv {ok : Bool} (h : s.Inv) (he : exec (.txDone ok) s = .next t) : t.Inv := by
  obtain ⟨hl, hs⟩ := State.inv_iff.1 h
  obtain ⟨-, rfl⟩ | ⟨hp, -, rfl⟩ | ⟨hp, -, rfl⟩ := exec_txDone_cases he
  · exact h
  · exact State.inv_iff.2 ⟨hl.congr rfl rfl rfl rfl fun _ => hl.inFlightConnected (by simp [hp]),
      .of_inFlight (by simp) (hs.attempt_pos (by simp [hp])) hs.attemptBound (by simp)
        (fun _ => s.cfg.one_le_ackTimeout) (by simp)⟩
  · exact State.inv_iff.2 ⟨hl.congr rfl rfl rfl rfl (by simp), s.finishSend_sendInv _ _⟩

theorem exec_tick_inv (h : s.Inv) (he : exec .tick s = .next t) : t.Inv := by
  obtain ⟨hl, hs⟩ := State.inv_iff.1 h
  obtain ⟨-, rfl⟩ | ⟨hp, -, rfl⟩ | ⟨hp, hlt, rfl⟩ | ⟨hp, -, rfl⟩ | ⟨hp, hlt, rfl⟩ := exec_tick_cases he
  · exact h
  · obtain ⟨hconnected, hopening, hrxbuf, hcfg, -⟩ := State.retry_frame { s with timer := s.timer + 1 }
    exact State.inv_iff.2 ⟨hl.congr hconnected hopening hrxbuf hcfg fun _ => hl.inFlightConnected (by simp [hp]),
      State.retry_sendInv _⟩
  · exact State.inv_iff.2 ⟨hl.congr rfl rfl rfl rfl hl.inFlightConnected,
      .of_inFlight (by simp [hp]) (hs.attempt_pos (by simp [hp])) hs.attemptBound (by simp [hp]) (fun _ => hlt)
        (by simp [hp])⟩
  · exact State.inv_iff.2 ⟨hl.congr rfl rfl rfl rfl (by simp), State.finishSend_sendInv _ _ _⟩
  · exact State.inv_iff.2 ⟨hl.congr rfl rfl rfl rfl hl.inFlightConnected,
      .of_inFlight (by simp [hp]) (hs.attempt_pos (by simp [hp])) hs.attemptBound (by simp [hp]) (by simp [hp])
        (fun _ => hlt)⟩

theorem exec_openDone_inv {ok : Bool} (h : s.Inv) (he : exec (.openDone ok) s = .next t) : t.Inv := by
  obtain ⟨hl, hs⟩ := State.inv_iff.1 h
  obtain ⟨-, rfl⟩ | ⟨-, -, rfl⟩ | ⟨ho, -, rfl⟩ := exec_openDone_cases he
  · exact h
  · exact State.inv_iff.2 ⟨.of_rxbuf_nil rfl (by simp) (fun _ => rfl), hs.congr rfl rfl rfl rfl rfl rfl⟩
  · exact State.inv_iff.2 ⟨.of_rxbuf_nil (hl.disconnectedEmpty (hl.not_connected ho)) (by simp) hl.inFlightConnected,
      hs.congr rfl rfl rfl rfl rfl rfl⟩

theorem exec_inv {i : Instr} (h : s.Inv) (he : exec i s = .next t) : t.Inv := by
  cases i
  case connect => exact exec_connect_inv h he
  case disconnect => exact exec_disconnect_inv h he
  case send => exact exec_send_inv h he
  case readReg =>
    obtain ⟨r, rfl⟩ := exec_readReg_next he
    exact h.result r
  case rxChunk => exact exec_rxChunk_inv h he
  case txDone => exact exec_txDone_inv h he
  case tick => exact exec_tick_inv h he
  case openDone => exact exec_openDone_inv h he
  case reset => exact (exec_reset_frame he).1.inv
  all_goals
    obtain ⟨r, rfl⟩ := exec_codec_next rfl he
    exact h.result r

/-- Settles O51: every event keeps the two parts of the invariants. -/
theorem everyStepKeepsTheInvariants : Obligations.EveryStepKeepsTheInvariants :=
  fun _ _ h hstep => step_induct State.Inv (fun _ rest h => h.takeRecord rest) (fun _ r h => h.result r)
    (fun _ _ _ => exec_inv) h hstep

/-! ### The reset state (R39) -/

theorem State.reset_engineReset : State.reset.EngineReset :=
  ⟨rfl, rfl, rfl, rfl, rfl, rfl, rfl, rfl, rfl⟩

/-- R35's reset column: at the engine's reset values every status register reads 0. -/
theorem State.EngineReset.readRegValue_eq_zero (h : s.EngineReset) {n : Nat} (hn : n ≤ 5) :
    readRegValue n s = some 0 := by
  obtain ⟨hconnected, hopening, hphase, hattempt, hexpect, -, htimer, hrxbuf, hoverflow⟩ := h
  interval_cases n <;>
    simp [readRegValue, Phase.code, hconnected, hopening, hphase, hattempt, hexpect, htimer, hrxbuf, hoverflow]

theorem exec_readReg_of_some {n v : Nat} (h : readRegValue n s = some v) :
    exec (.readReg n) s = .next (s.withResult 0x33 .ok (some (.value v))) := by
  simp only [exec, execReadReg, h]
  rfl

/-- Settles O50, by the reset values of the engine and the frame of RESET. -/
theorem resetState : Obligations.ResetState := by
  refine ⟨State.reset_engineReset, rfl, rfl, rfl, rfl,
    fun n hn => exec_readReg_of_some (State.reset_engineReset.readRegValue_eq_zero hn), fun s => ?_⟩
  obtain ⟨t, he⟩ := exec_next .reset s
  obtain ⟨hengine, htx, hchan, hnotes, hresults, -⟩ := exec_reset_frame he
  exact ⟨t, he, hengine, htx, hchan, hnotes, hresults⟩

/-- Settles O52, by the reset values of the engine. -/
theorem resetMeetsTheInvariants : Obligations.ResetMeetsTheInvariants :=
  ⟨State.reset_engineReset.inv, rfl, rfl, rfl, rfl⟩

end Sys2Proof.Machine

namespace Sys2Proof.Machine

/-! ### The logs and the merged trace (R50) -/

/-- A selection that goes through the trace entry by entry splits where the trace does. -/
theorem trace_append_of_cons {α : Type} {f : List Output → List α} (hnil : f [] = [])
    (hcons : ∀ o l, f (o :: l) = f [o] ++ f l) (l l' : List Output) : f (l ++ l') = f l ++ f l' := by
  induction l with
  | nil => simp [hnil]
  | cons o l ih => rw [List.cons_append, hcons, ih, hcons o l, List.append_assoc]

theorem traceTx_append (l l' : List Output) : traceTx (l ++ l') = traceTx l ++ traceTx l' :=
  trace_append_of_cons rfl (fun o _ => by cases o <;> rfl) l l'

theorem traceChan_append (l l' : List Output) : traceChan (l ++ l') = traceChan l ++ traceChan l' :=
  trace_append_of_cons rfl (fun o _ => by cases o <;> rfl) l l'

theorem traceNotes_append (l l' : List Output) : traceNotes (l ++ l') = traceNotes l ++ traceNotes l' :=
  trace_append_of_cons rfl (fun o _ => by cases o <;> rfl) l l'

theorem traceResults_append (l l' : List Output) : traceResults (l ++ l') = traceResults l ++ traceResults l' :=
  trace_append_of_cons rfl (fun o _ => by cases o <;> rfl) l l'

/-- The agreement survives when the trace grows and each log grows by the new entries of its kind. -/
theorem State.LogsMatchTrace.append {s t : State} (h : s.LogsMatchTrace) (new : List Output)
    (htrace : t.trace = s.trace ++ new) (htx : t.txlog = s.txlog ++ traceTx new)
    (hchan : t.chanreq = s.chanreq ++ traceChan new) (hnotes : t.notes = s.notes ++ traceNotes new)
    (hresults : t.results = s.results ++ traceResults new) : t.LogsMatchTrace where
  tx := by rw [htrace, htx, traceTx_append, h.tx]
  chan := by rw [htrace, hchan, traceChan_append, h.chan]
  notes := by rw [htrace, hnotes, traceNotes_append, h.notes]
  results := by rw [htrace, hresults, traceResults_append, h.results]

/-- Each append puts its entry into the log of its kind and into the trace; the other three logs grow by nothing. -/
theorem State.logsMatchTrace_appendClosed : State.AppendClosed State.LogsMatchTrace where
  logsOnly _ _ htx hchan hnotes hresults htrace h :=
    ⟨by rw [htx, htrace, h.tx], by rw [hchan, htrace, h.chan], by rw [hnotes, htrace, h.notes],
      by rw [hresults, htrace, h.results]⟩
  txEmit _ b h := h.append [.tx b] rfl rfl (by simp [traceChan]) (by simp [traceNotes]) (by simp [traceResults])
  request _ r h := h.append [.chan r] rfl (by simp [traceTx]) rfl (by simp [traceNotes]) (by simp [traceResults])
  notify _ n h := h.append [.note n] rfl (by simp [traceTx]) (by simp [traceChan]) rfl (by simp [traceResults])
  result _ r h := h.append [.result r] rfl (by simp [traceTx]) (by simp [traceChan]) (by simp [traceNotes]) rfl

/-- Settles O53: the logs and the trace are written by the four appends only, and each of them keeps the agreement. -/
theorem everyStepKeepsLogsAndTraceTogether : Obligations.EveryStepKeepsLogsAndTraceTogether :=
  fun _ _ h hstep => State.logsMatchTrace_appendClosed.step h hstep

end Sys2Proof.Machine

/-! PROOF. The statements of spec/30_encoding.md: which records are events (R56, R77), what an illegal opcode does (R78),
and that the decoder and the encoder of the byte serialisation are inverse (R55; log entry 2). -/

namespace Sys2Proof

open Machine

/-! ### Which records are events (R56, R77) -/

/-- The operands of an event are of the types of its row, but for a `width`, which `Instr.wellFormed` bounds. -/
theorem conforms_operands (i : Instr) : conforms i.opcode.signature i.operands = i.wellFormed := by
  cases i with
  | encNum value width =>
    simp [Instr.opcode, Opcode.signature, Instr.operands, Instr.wellFormed, conforms, Operand.hasType, widthOk]
  | encText text width pad =>
    simp [Instr.opcode, Opcode.signature, Instr.operands, Instr.wellFormed, conforms, Operand.hasType, widthOk]
  | buildCancelReq _ _ _ _ _ _ _ _ _ _ _ _ info => cases info <;> rfl
  | connect _ baud => cases baud <;> rfl
  | _ => rfl

/-- The record of an event decodes to it, and no other record does. -/
theorem decode_eq_ok_iff {r : EventRecord} {i : Instr} : decode r = .ok i ↔ r = encode i ∧ i.wellFormed = true := by
  constructor
  · intro h
    obtain ⟨hr, hwf⟩ := decode_eq_ok h
    exact ⟨hr.symm, hwf⟩
  · rintro ⟨rfl, hwf⟩
    simp only [decode, encode, Opcode.ofByte_byte, decodeOperands_operands hwf]

/-- Settles O4: an event's own record is typed, and the decoder takes every typed operand list. -/
theorem admittedIffTyped : Obligations.AdmittedIffTyped := by
  intro r
  constructor
  · rintro ⟨i, h⟩
    obtain ⟨rfl, hwf⟩ := decode_eq_ok_iff.mp h
    exact ⟨i.opcode, rfl, (conforms_operands i).trans hwf⟩
  · rintro ⟨o, ho, hc⟩
    obtain ⟨i, hi⟩ := exists_decodeOperands hc
    exact ⟨i, by simp only [decode, ← ho, Opcode.ofByte_byte, hi]⟩

/-! ### Illegal opcodes (R78) -/

theorem decode_of_unlisted {r : EventRecord} (h : ∀ o : Opcode, o.byte ≠ r.opcode) :
    decode r = .error (.illegalOpcode r.opcode) := by
  simp only [decode, Opcode.ofByte_eq_none h]

/-- Settles O3, by the step of a record whose opcode is not in the map. -/
theorem illegalOpcodeIsReported : Obligations.IllegalOpcodeIsReported :=
  ⟨rfl, fun _ _ _ hin hop => step_of_illegalOpcode hin (decode_of_unlisted hop)⟩

/-! ### One operand and its bytes (R55, log entry 2) -/

theorem readOperand_bytes_eq_ok {bs rest : Bytes} {x : Operand} :
    readOperand .bytes bs = .ok (x, rest) ↔
      ∃ s : Bytes, x = .bytes s ∧ s.length < 4294967296 ∧ bs = le32 s.length ++ s ++ rest := by
  constructor
  · intro h
    simp only [readOperand] at h
    split at h
    · cases h
    · next s r hs =>
      cases h
      obtain ⟨hbs, hlt⟩ := readString_sound hs
      exact ⟨s, rfl, hlt, hbs⟩
  · rintro ⟨s, rfl, hlt, rfl⟩
    simp only [readOperand, readString_ok hlt]

theorem readOperand_nat_eq_ok {bs rest : Bytes} {x : Operand} :
    readOperand .nat bs = .ok (x, rest) ↔ ∃ n, x = .nat n ∧ n < 4294967296 ∧ bs = le32 n ++ rest := by
  constructor
  · intro h
    simp only [readOperand] at h
    split at h
    · cases h
    · next n r hn =>
      cases h
      obtain ⟨hbs, hlt⟩ := readNat32_sound hn
      exact ⟨n, rfl, hlt, hbs⟩
  · rintro ⟨n, rfl, hlt, rfl⟩
    simp only [readOperand, readNat32_le32 hlt]

/-- A type `t` that is a tag byte before the type `u`, as the two `opt` types are. -/
theorem readOperand_tagged_eq_ok {t u : OperandType} (hnil : readOperand t [] = .error .truncated)
    (hcons : ∀ (b : Byte) (tail : Bytes), readOperand t (b :: tail) =
      if b = 0 then .ok (.absent, tail) else if b = 1 then readOperand u tail else .error .badTag)
    {bs rest : Bytes} {x : Operand} :
    readOperand t bs = .ok (x, rest) ↔
      (x = .absent ∧ bs = 0 :: rest) ∨ ∃ tail, bs = 1 :: tail ∧ readOperand u tail = .ok (x, rest) := by
  constructor
  · intro h
    cases bs with
    | nil => cases hnil.symm.trans h
    | cons b tail =>
      rw [hcons] at h
      split_ifs at h with h0 h1
      · cases h
        exact .inl ⟨rfl, by rw [h0]⟩
      · exact .inr ⟨tail, by rw [h1], h⟩
  · rintro (⟨rfl, rfl⟩ | ⟨tail, rfl, h⟩)
    · exact hcons 0 rest
    · exact (hcons 1 tail).trans h

theorem readOperand_optBytes_eq_ok {bs rest : Bytes} {x : Operand} :
    readOperand .optBytes bs = .ok (x, rest) ↔
      (x = .absent ∧ bs = 0 :: rest) ∨ ∃ tail, bs = 1 :: tail ∧ readOperand .bytes tail = .ok (x, rest) :=
  readOperand_tagged_eq_ok rfl fun _ _ => rfl

theorem readOperand_optNat_eq_ok {bs rest : Bytes} {x : Operand} :
    readOperand .optNat bs = .ok (x, rest) ↔
      (x = .absent ∧ bs = 0 :: rest) ∨ ∃ tail, bs = 1 :: tail ∧ readOperand .nat tail = .ok (x, rest) :=
  readOperand_tagged_eq_ok rfl fun _ _ => rfl

/-- A typed operand that fits is read back from its bytes. -/
theorem readOperand_writeOperand {t : OperandType} {x : Operand} (ht : Operand.hasType t x = true)
    (hfit : x.fitsWire = true) (rest : Bytes) : readOperand t (writeOperand t x ++ rest) = .ok (x, rest) := by
  cases t with
  | bytes =>
    obtain ⟨s, rfl⟩ := Operand.hasType_bytes.mp ht
    exact readOperand_bytes_eq_ok.mpr ⟨s, rfl, of_decide_eq_true hfit, rfl⟩
  | bytesN =>
    obtain ⟨s, rfl⟩ := Operand.hasType_bytesN.mp ht
    exact readOperand_bytes_eq_ok.mpr ⟨s, rfl, of_decide_eq_true hfit, rfl⟩
  | byte =>
    obtain ⟨b, rfl⟩ := Operand.hasType_byte.mp ht
    rfl
  | nat =>
    obtain ⟨n, rfl⟩ := Operand.hasType_nat.mp ht
    exact readOperand_nat_eq_ok.mpr ⟨n, rfl, of_decide_eq_true hfit, rfl⟩
  | width =>
    obtain ⟨n, rfl, hw⟩ := Operand.hasType_width.mp ht
    have hn : 1 ≤ n ∧ n ≤ 255 := by simpa [widthOk] using hw
    have hback : (n - 1) % 2 ^ 8 + 1 = n := by omega
    simp only [readOperand, writeOperand, List.singleton_append, BitVec.toNat_ofNat, hback]
  | bool =>
    obtain ⟨b, rfl⟩ := Operand.hasType_bool.mp ht
    cases b <;> rfl
  | table =>
    obtain ⟨t, rfl⟩ := Operand.hasType_table.mp ht
    simp only [readOperand, writeOperand, List.singleton_append, Table.ofByte_byte]
  | optBytes =>
    obtain ⟨_ | s, rfl⟩ := Operand.hasType_optBytes.mp ht
    · rfl
    · exact readOperand_optBytes_eq_ok.mpr
        (.inr ⟨_, rfl, readOperand_bytes_eq_ok.mpr ⟨s, rfl, of_decide_eq_true hfit, rfl⟩⟩)
  | optNat =>
    obtain ⟨_ | n, rfl⟩ := Operand.hasType_optNat.mp ht
    · rfl
    · exact readOperand_optNat_eq_ok.mpr
        (.inr ⟨_, rfl, readOperand_nat_eq_ok.mpr ⟨n, rfl, of_decide_eq_true hfit, rfl⟩⟩)

/-- What a read operand says of the bytes. That it has its type is not claimed: the byte 0xFF reads as the width 256,
which `decode` refuses. -/
theorem readOperand_sound {t : OperandType} {bs rest : Bytes} {x : Operand} (h : readOperand t bs = .ok (x, rest)) :
    bs = writeOperand t x ++ rest ∧ x.fitsWire = true := by
  cases t with
  | bytes | bytesN =>
    obtain ⟨s, rfl, hlt, rfl⟩ := readOperand_bytes_eq_ok.mp h
    exact ⟨rfl, decide_eq_true hlt⟩
  | nat =>
    obtain ⟨n, rfl, hlt, rfl⟩ := readOperand_nat_eq_ok.mp h
    exact ⟨rfl, decide_eq_true hlt⟩
  | byte =>
    cases bs with
    | nil => cases h
    | cons b tail =>
      cases h
      exact ⟨rfl, rfl⟩
  | width =>
    cases bs with
    | nil => cases h
    | cons b tail =>
      cases h
      have hb := b.isLt
      exact ⟨by simp [writeOperand], decide_eq_true (by omega)⟩
  | bool =>
    cases bs with
    | nil => cases h
    | cons b tail =>
      simp only [readOperand] at h
      split_ifs at h with h0 h1 <;> cases h
      · exact ⟨by rw [h0]; rfl, rfl⟩
      · exact ⟨by rw [h1]; rfl, rfl⟩
  | table =>
    cases bs with
    | nil => cases h
    | cons b tail =>
      simp only [readOperand] at h
      split at h
      · cases h
      · next t ht =>
        cases h
        rw [Table.byte_of_ofByte ht]
        exact ⟨rfl, rfl⟩
  | optBytes =>
    obtain ⟨rfl, rfl⟩ | ⟨tail, rfl, hs⟩ := readOperand_optBytes_eq_ok.mp h
    · exact ⟨rfl, rfl⟩
    · obtain ⟨s, rfl, hlt, rfl⟩ := readOperand_bytes_eq_ok.mp hs
      exact ⟨rfl, decide_eq_true hlt⟩
  | optNat =>
    obtain ⟨rfl, rfl⟩ | ⟨tail, rfl, hn⟩ := readOperand_optNat_eq_ok.mp h
    · exact ⟨rfl, rfl⟩
    · obtain ⟨n, rfl, hlt, rfl⟩ := readOperand_nat_eq_ok.mp hn
      exact ⟨rfl, decide_eq_true hlt⟩

/-! ### The operands of a row and their bytes -/

/-- The operands of a row are read one after the other, each from what the one before left over. -/
theorem readOperands_cons_eq_ok {t : OperandType} {ts : List OperandType} {bs rest : Bytes} {xs : List Operand} :
    readOperands (t :: ts) bs = .ok (xs, rest) ↔
      ∃ x mid ys, xs = x :: ys ∧ readOperand t bs = .ok (x, mid) ∧ readOperands ts mid = .ok (ys, rest) := by
  constructor
  · intro h
    simp only [readOperands] at h
    split at h
    · cases h
    · next x mid hx =>
      split at h
      · cases h
      · next ys r hys =>
        cases h
        exact ⟨x, mid, ys, rfl, hx, hys⟩
  · rintro ⟨x, mid, ys, rfl, hx, hys⟩
    simp only [readOperands, hx, hys]

theorem readOperands_writeOperands {ts : List OperandType} {xs : List Operand} (ht : conforms ts xs = true)
    (hfit : xs.all Operand.fitsWire = true) (rest : Bytes) :
    readOperands ts (writeOperands ts xs ++ rest) = .ok (xs, rest) := by
  induction ts generalizing xs with
  | nil =>
    obtain rfl := conforms_nil.mp ht
    rfl
  | cons t ts ih =>
    obtain ⟨x, ys, rfl, hx, hys⟩ := conforms_cons.mp ht
    obtain ⟨hxfit, hysfit⟩ := (Bool.and_eq_true _ _).mp hfit
    rw [writeOperands, List.append_assoc]
    exact readOperands_cons_eq_ok.mpr ⟨x, _, ys, rfl, readOperand_writeOperand hx hxfit _, ih hys hysfit⟩

theorem readOperands_sound {ts : List OperandType} {bs rest : Bytes} {xs : List Operand}
    (h : readOperands ts bs = .ok (xs, rest)) : bs = writeOperands ts xs ++ rest ∧ xs.all Operand.fitsWire = true := by
  induction ts generalizing bs xs with
  | nil =>
    cases h
    exact ⟨rfl, rfl⟩
  | cons t ts ih =>
    obtain ⟨x, mid, ys, rfl, hx, hys⟩ := readOperands_cons_eq_ok.mp h
    obtain ⟨rfl, hxfit⟩ := readOperand_sound hx
    obtain ⟨rfl, hysfit⟩ := ih hys
    exact ⟨(List.append_assoc _ _ _).symm, (Bool.and_eq_true _ _).mpr ⟨hxfit, hysfit⟩⟩

/-! ### Events and their bytes -/

/-- The opcode of a record read is the first of its bytes (R55). -/
theorem readRecord_cons_opcode {op : Byte} {bs rest : Bytes} {r : EventRecord}
    (h : readRecord (op :: bs) = .ok (r, rest)) : r.opcode = op := by
  simp only [readRecord] at h
  split at h
  · cases h
    rfl
  · split at h
    · cases h
    · cases h
      rfl

/-- A record with a listed opcode is read from that opcode's byte and the operands of its row. -/
theorem readRecord_listed_eq_ok {o : Opcode} {bs rest : Bytes} {xs : List Operand} :
    readRecord bs = .ok (⟨o.byte, xs⟩, rest) ↔
      ∃ tail, bs = o.byte :: tail ∧ readOperands o.signature tail = .ok (xs, rest) := by
  constructor
  · intro h
    cases bs with
    | nil => cases h
    | cons op tail =>
      obtain rfl : o.byte = op := readRecord_cons_opcode h
      simp only [readRecord, Opcode.ofByte_byte] at h
      split at h
      · cases h
      · next hxs =>
        cases h
        exact ⟨tail, rfl, hxs⟩
  · rintro ⟨tail, rfl, hxs⟩
    simp only [readRecord, Opcode.ofByte_byte, hxs]

/-- Bytes decode to an event when the record they start with is that event's. -/
theorem decodeWire_eq_ok {bs rest : Bytes} {i : Instr} :
    decodeWire bs = .ok (i, rest) ↔ readRecord bs = .ok (encode i, rest) ∧ i.wellFormed = true := by
  constructor
  · intro h
    simp only [decodeWire] at h
    split at h
    · cases h
    · next r mid hr =>
      split at h
      · cases h
      · next j hd =>
        cases h
        obtain ⟨rfl, hwf⟩ := decode_eq_ok_iff.mp hd
        exact ⟨hr, hwf⟩
  · rintro ⟨hr, hwf⟩
    simp only [decodeWire, hr, decode_eq_ok_iff.mpr ⟨rfl, hwf⟩]

/-- Settles O7: the bytes of each operand are read back, in the order of the row. -/
theorem decodeOfEncodeIsTheEvent : Obligations.DecodeOfEncodeIsTheEvent := by
  intro i rest hwf hfit
  have htyped : conforms i.opcode.signature i.operands = true := (conforms_operands i).trans hwf
  exact decodeWire_eq_ok.mpr
    ⟨readRecord_listed_eq_ok.mpr ⟨_, rfl, readOperands_writeOperands htyped hfit rest⟩, hwf⟩

/-- Settles O8: each operand read fixes the bytes it was read from. -/
theorem encodeOfDecodeIsTheBytes : Obligations.EncodeOfDecodeIsTheBytes := by
  intro bs i rest h
  obtain ⟨hrecord, hwf⟩ := decodeWire_eq_ok.mp h
  obtain ⟨tail, rfl, hoperands⟩ := readRecord_listed_eq_ok.mp hrecord
  obtain ⟨rfl, hfit⟩ := readOperands_sound hoperands
  exact ⟨rfl, hwf, hfit⟩

/-- Settles O6, by reading each of the strings. -/
theorem writtenOutRecordsDecode : Obligations.WrittenOutRecordsDecode :=
  ⟨rfl, rfl, rfl, rfl, rfl, rfl⟩

end Sys2Proof

/-! PROOF. The statements of spec/40_field_codec.md: what each field codec command answers (R82 to R89), and the laws of
decimal fields (R91), of the checksum (R92) and of text fields (R93). -/

namespace Sys2Proof.Machine

variable {p : Params} {s : State}

/-! ### The answer of each command, in terms of its field operation (R80) -/

theorem exec_checksum (data : Bytes) :
    exec (.checksum data) s = .next (s.withResult 0x01 .ok (some (.bcc (xorBytes data)))) := rfl

theorem exec_encNum (v w : Nat) :
    exec (.encNum v w) s = .next (s.answer 0x02 ((encNumField s.params.overflowPolicy v w).map .field)) := rfl

theorem exec_encNum_of_ok {v w : Nat} {f : Bytes} (h : encNumField s.params.overflowPolicy v w = .ok f) :
    exec (.encNum v w) s = .next (s.withResult 0x02 .ok (some (.field f))) := by
  rw [exec_encNum, h]
  rfl

theorem exec_encNum_of_error {v w : Nat} {e : ResultCode} (h : encNumField s.params.overflowPolicy v w = .error e) :
    exec (.encNum v w) s = .next (s.withResult 0x02 e none) := by
  rw [exec_encNum, h]
  rfl

theorem exec_encText (text : Bytes) (w : Nat) (pad : Byte) :
    exec (.encText text w pad) s = .next (s.withResult 0x03 .ok (some (.field (encTextField text w pad)))) := rfl

theorem exec_decAscii (region : Bytes) :
    exec (.decAscii region) s = .next (s.withResult 0x04 .ok (some (.text (clean region)))) := rfl

theorem exec_decLocal (region : Bytes) :
    exec (.decLocal region) s =
      .next (s.withResult 0x05 .ok (some (.localText ⟨clean region, krValid s.params (clean region)⟩))) := rfl

theorem exec_decNum (region : Bytes) :
    exec (.decNum region) s = .next (s.withResult 0x06 .ok (some (.num (decNumField region)))) := rfl

theorem exec_classify (table : Table) (code : Byte) :
    exec (.classify table code) s =
      .next (s.withResult 0x07 .ok (some (.classified ⟨(classifyCode s.params table code).variant, code⟩))) := rfl

theorem exec_errLookup (code : Bytes) :
    exec (.errLookup code) s = .next (s.answer 0x08 (errLookupOut s.params code)) := rfl

/-! ### Decimal fields (R83, R87, R91) -/

/-- ENC_NUM answers no field but the decimal one, and under REJECT only for a value that fits. -/
theorem encNumField_eq_ok {policy : OverflowPolicy} {v w : Nat} {f : Bytes} (hw : 1 ≤ w)
    (h : encNumField policy v w = .ok f) : f = decimalField v w ∧ (policy = .reject → v < 10 ^ w) := by
  rcases Nat.lt_or_ge v (10 ^ w) with hfits | hover
  · rw [encNumField_of_fits policy v w hw hfits] at h
    exact ⟨(Except.ok.inj h).symm, fun _ => hfits⟩
  · cases policy with
    | reject =>
      rw [encNumField_reject v w hw hover] at h
      cases h
    | truncateHigh =>
      rw [encNumField_truncateHigh v w hw] at h
      exact ⟨(Except.ok.inj h).symm, nofun⟩

/-- The fold of the pseudocode is the positional sum of the rule. -/
theorem digitsValue_eq_digitsSum (t : Bytes) : digitsValue t = digitsSum t := by
  induction t using List.reverseRecOn with
  | nil => rfl
  | append_singleton t b ih => rw [digitsValue_append, digitsSum_append, ih]

theorem numOk_iff {t : Bytes} : numOk t = true ↔ t ≠ [] ∧ ∀ b ∈ t, 0x30 ≤ b.toNat ∧ b.toNat ≤ 0x39 := by
  simp [numOk, isDigit]

theorem decNumField_of_numOk {region : Bytes} (h : numOk (clean region) = true) :
    decNumField region = ⟨digitsValue (clean region), true⟩ := if_pos h

theorem decNumField_of_not_numOk {region : Bytes} (h : ¬ numOk (clean region) = true) :
    decNumField region = ⟨0, false⟩ := if_neg h

/-- A digit is neither 0x00 nor whitespace, so `clean` takes nothing from a decimal field. -/
theorem clean_decimalField (v w : Nat) : clean (decimalField v w) = decimalField v w := by
  have hdigit : ∀ b ∈ decimalField v w, b ≠ 0 ∧ isWS b = false := by
    intro b hb
    obtain ⟨n, hn, rfl⟩ := mem_decimalField hb
    obtain ⟨hzero, hws, -⟩ := digit_facts n hn
    exact ⟨hzero, hws⟩
  simpa using clean_self (t := decimalField v w) (fun h0 => (hdigit 0 h0).1 rfl)
    (fun b hb => (hdigit b (List.mem_of_head? hb)).2) (fun b hb => (hdigit b (List.mem_of_getLast? hb)).2) 0

/-- A decimal field of at least one digit is a number to DEC_NUM. -/
theorem numOk_decimalField {v w : Nat} (hw : 1 ≤ w) : numOk (decimalField v w) = true := by
  have hne : decimalField v w ≠ [] := List.ne_nil_of_length_pos (by rw [length_decimalField]; omega)
  have hall : (decimalField v w).all isDigit = true := by
    refine List.all_eq_true.mpr fun b hb => ?_
    obtain ⟨n, hn, rfl⟩ := mem_decimalField hb
    exact isDigit_digit hn
  simp [numOk, hne, hall]

/-- The digits of a field of width `w` carry the value modulo `10^w`. -/
theorem digitsValue_decimalField (v w : Nat) : digitsValue (decimalField v w) = v % 10 ^ w := by
  induction w generalizing v with
  | zero => simp [decimalField, digitsValue, Nat.mod_one]
  | succ w ih =>
    obtain ⟨-, -, hvalue⟩ := digit_facts (v % 10) (Nat.mod_lt v (by decide))
    rw [decimalField_succ, digitsValue_append, ih, hvalue, Nat.pow_succ', Nat.mod_mul]
    omega

/-- Settles O10, by what ENC_NUM's field is under each policy. -/
theorem encNumIsTheDecimalField : Obligations.EncNumIsTheDecimalField := by
  intro v w s hw _
  refine ⟨?_, ?_⟩
  · rintro (hfits | hpolicy)
    · exact exec_encNum_of_ok (encNumField_of_fits _ v w hw hfits)
    · exact exec_encNum_of_ok (hpolicy ▸ encNumField_truncateHigh v w hw)
  · intro hover hpolicy
    exact exec_encNum_of_error (hpolicy ▸ encNumField_reject v w hw hover)

/-- Settles O14: `num_ok` decides between the two clauses. -/
theorem decNumIsThePositionalSum : Obligations.DecNumIsThePositionalSum := by
  intro region s
  rw [exec_decNum]
  refine ⟨fun hne hdigits => ?_, fun hbad => ?_⟩
  · rw [decNumField_of_numOk (numOk_iff.mpr ⟨hne, hdigits⟩), digitsValue_eq_digitsSum]
  · rw [decNumField_of_not_numOk]
    rw [numOk_iff]
    rintro ⟨hne, hdigits⟩
    obtain hempty | ⟨b, hb, hout⟩ := hbad
    · exact hne hempty
    · have := hdigits b hb
      omega

/-- Settles O17: the field ENC_NUM answers is the decimal one, and `clean` and DEC_NUM read its digits. -/
theorem decNumOfEncNum : Obligations.DecNumOfEncNum := by
  intro policy v w f hw hf
  obtain ⟨rfl, hfits⟩ := encNumField_eq_ok hw hf
  have hdec : decNumField (decimalField v w) = ⟨v % 10 ^ w, true⟩ := by
    have hok : numOk (clean (decimalField v w)) = true := by
      rw [clean_decimalField]
      exact numOk_decimalField hw
    rw [decNumField_of_numOk hok, clean_decimalField, digitsValue_decimalField]
  refine ⟨length_decimalField v w, hdec, fun hreject => ?_⟩
  rw [hdec, Nat.mod_eq_of_lt (hfits hreject)]

/-! ### Cleaned text (R81, R85, R86, R93) -/

/-- `clean` as the library's two trims. -/
theorem clean_eq_rdropWhile (r : Bytes) :
    clean r = ((r.filter (· != 0)).dropWhile isWS).rdropWhile isWS := rfl

/-- What `clean` takes away: the zeros, then whitespace before and after the text it answers. -/
theorem exists_filter_eq_clean (r : Bytes) :
    ∃ before after : Bytes, r.filter (· != 0) = before ++ clean r ++ after ∧
      (∀ b ∈ before, isWS b = true) ∧ ∀ b ∈ after, isWS b = true := by
  refine ⟨(r.filter (· != 0)).takeWhile isWS, ((r.filter (· != 0)).dropWhile isWS).rtakeWhile isWS, ?_,
    fun _ => List.mem_takeWhile_imp, fun _ => List.mem_rtakeWhile_imp⟩
  rw [clean_eq_rdropWhile, List.append_assoc, List.rdropWhile_append_rtakeWhile, List.takeWhile_append_dropWhile]

theorem eq_false_of_head?_dropWhile {p : Byte → Bool} {l : Bytes} {b : Byte} (h : (l.dropWhile p).head? = some b) :
    p b = false := by
  have hhead := List.head?_dropWhile_not p l
  rw [h] at hhead
  exact hhead

theorem isWS_of_head?_clean {r : Bytes} {b : Byte} (h : (clean r).head? = some b) : isWS b = false := by
  rw [clean_eq_rdropWhile] at h
  refine eq_false_of_head?_dropWhile (p := isWS) (l := r.filter (· != 0)) ?_
  rw [← List.rdropWhile_append_rtakeWhile (p := isWS) (l := List.dropWhile _ _), List.head?_append, h]
  rfl

theorem isWS_of_getLast?_clean {r : Bytes} {b : Byte} (h : (clean r).getLast? = some b) : isWS b = false := by
  rw [clean, List.getLast?_reverse] at h
  exact eq_false_of_head?_dropWhile h

theorem krValid_nil : krValid p [] = true := by
  cases hp : p.krPredicate <;> simp [krValid, hp, eucKrValid]

theorem encTextField_of_length_le {t : Bytes} {w : Nat} (pad : Byte) (h : t.length ≤ w) :
    encTextField t w pad = t ++ List.replicate (w - t.length) pad := by
  rw [encTextField_eq, List.take_append, List.take_of_length_le h, List.take_replicate, Nat.min_eq_left (by omega)]

theorem encTextField_of_le_length {t : Bytes} {w : Nat} (pad : Byte) (h : w ≤ t.length) :
    encTextField t w pad = t.take w := by
  rw [encTextField_eq, List.take_append_of_le_length h]

/-- Settles O12, by what `clean` takes away and what it leaves at the ends. -/
theorem decAsciiStripsAndTrims : Obligations.DecAsciiStripsAndTrims := by
  intro region s
  obtain ⟨before, after, hsplit, hbefore, hafter⟩ := exists_filter_eq_clean region
  exact ⟨before, clean region, after, exec_decAscii region, hsplit, hbefore, hafter,
    fun _ => isWS_of_head?_clean, fun _ => isWS_of_getLast?_clean⟩

/-- Settles O19: a text that fits is followed by zeros only, which `clean` drops; a longer one is cut. -/
theorem cleanOfEncText : Obligations.CleanOfEncText := by
  refine ⟨length_encTextField, fun t hlen hzero hhead hlast => ?_, fun t hlong => ?_⟩
  · rw [encTextField_of_length_le 0 hlen, clean_self hzero hhead hlast]
  · rw [encTextField_of_le_length 0 hlong.le]

/-- Settles O11, by ENC_TEXT's field as the first bytes of the padded text. -/
theorem encTextFitsOrTruncates : Obligations.EncTextFitsOrTruncates := by
  intro text w pad s
  rw [exec_encText, encTextField_eq]

/-- Settles O13: both decoders answer the cleaned text. -/
theorem decLocalNeverFails : Obligations.DecLocalNeverFails :=
  fun region _ => ⟨exec_decLocal region, exec_decAscii region, krValid_nil⟩

/-! ### Code tables (R88, R89) -/

/-- The JOB table of R88, as a list like the configured tables. -/
def jobTable (p : Params) : List (Byte × JobKind) :=
  [(p.jcApprovalReq, .approvalReq), (p.jcCancelReq, .cancelReq), (p.jcDevchkRsp, .devchkRsp),
    (p.jcEventRsp, .eventRsp), (p.jcApprovalRsp, .approvalRsp), (p.jcCardinqRsp, .cardinqRsp)]

/-- The TT table of R88. -/
def ttTable (p : Params) : List (Byte × TxType) := [(p.ttApproved, .approved), (p.ttRejected, .rejected)]

theorem lookup_cons_eq_ite {κ α : Type} [DecidableEq κ] (k k' : κ) (a : α) (l : List (κ × α)) :
    ((k', a) :: l).lookup k = if k = k' then some a else l.lookup k := by
  by_cases hk : k = k'
  · rw [if_pos hk, hk, List.lookup_cons_self]
  · rw [if_neg hk, List.lookup_cons, beq_false_of_ne hk]

/-- The first entry for a key is its only one where no key repeats. -/
theorem lookup_eq_some_iff_mem {κ α : Type} [DecidableEq κ] {l : List (κ × α)} (h : (l.map Prod.fst).Nodup) {k : κ}
    {a : α} : l.lookup k = some a ↔ (k, a) ∈ l := by
  induction l with
  | nil => simp
  | cons e l ih =>
    obtain ⟨k', a'⟩ := e
    rw [List.map_cons, List.nodup_cons] at h
    obtain ⟨hnew, hrest⟩ := h
    rw [lookup_cons_eq_ite, List.mem_cons, Prod.mk.injEq]
    split_ifs with hk
    · have hother : (k, a) ∉ l := fun hmem => hnew (List.mem_map.mpr ⟨(k, a), hmem, hk⟩)
      simp [hk ▸ hother, hk, eq_comm]
    · simp [hk, ih hrest]

theorem lookup_eq_none_iff_notMem {κ α : Type} [DecidableEq κ] {l : List (κ × α)} {k : κ} :
    l.lookup k = none ↔ k ∉ l.map Prod.fst := by
  simp only [List.lookup_eq_none_iff, bne_iff_ne, List.mem_map, not_exists, not_and]
  exact forall₂_congr fun _ _ => ne_comm

/-- A lookup's answer names the entry it found, where the family `f` of variants is injective. -/
theorem elim_unrecognized_eq_iff {α : Type} {f : α → Variant} (hinj : Function.Injective f)
    (hne : ∀ a, f a ≠ .unrecognized) {o : Option α} {a : α} : o.elim .unrecognized f = f a ↔ o = some a := by
  cases o with
  | none => exact ⟨fun h => (hne a h.symm).elim, nofun⟩
  | some b => rw [Option.elim_some, hinj.eq_iff, Option.some_inj]

theorem elim_unrecognized_eq_unrecognized_iff {α : Type} {f : α → Variant} (hne : ∀ a, f a ≠ .unrecognized)
    {o : Option α} : o.elim .unrecognized f = .unrecognized ↔ o = none := by
  cases o with
  | none => exact ⟨fun _ => rfl, fun _ => rfl⟩
  | some b => exact ⟨fun h => (hne b h).elim, nofun⟩

theorem classifyCode_job (p : Params) (code : Byte) :
    (classifyCode p .job code).variant = ((jobTable p).lookup code).elim .unrecognized .job := by
  simp only [classifyCode, classifyJob, jobTable, lookup_cons_eq_ite, List.lookup_nil]
  split_ifs <;> rfl

theorem classifyCode_tt (p : Params) (code : Byte) :
    (classifyCode p .tt code).variant = ((ttTable p).lookup code).elim .unrecognized .tt := by
  simp only [classifyCode, classifyTt, ttTable, lookup_cons_eq_ite, List.lookup_nil]
  split_ifs <;> rfl

theorem jobTable_keys (p : Params) : (jobTable p).map Prod.fst = p.jobCodes := rfl

theorem ttTable_keys (p : Params) : (ttTable p).map Prod.fst = [p.ttApproved, p.ttRejected] := rfl

/-- R10's distinct job codes make each row of the JOB table count. -/
theorem classifyCode_job_eq_job_iff (c : Cfg) {code : Byte} {k : JobKind} :
    (classifyCode c.params .job code).variant = .job k ↔ (code, k) ∈ jobTable c.params := by
  have hkeys : ((jobTable c.params).map Prod.fst).Nodup := c.jobCodes_nodup
  rw [classifyCode_job, elim_unrecognized_eq_iff (fun _ _ => Variant.job.inj) nofun, lookup_eq_some_iff_mem hkeys]

theorem classifyCode_job_eq_unrecognized_iff {code : Byte} :
    (classifyCode p .job code).variant = .unrecognized ↔ code ∉ p.jobCodes := by
  rw [classifyCode_job, elim_unrecognized_eq_unrecognized_iff nofun, lookup_eq_none_iff_notMem, jobTable_keys]

/-- R10's distinct transaction types make both rows of the TT table count. -/
theorem classifyCode_tt_eq_tt_iff (c : Cfg) {code : Byte} {k : TxType} :
    (classifyCode c.params .tt code).variant = .tt k ↔ (code, k) ∈ ttTable c.params := by
  have hkeys : ((ttTable c.params).map Prod.fst).Nodup := by
    simpa [ttTable_keys] using c.ttApproved_ne_ttRejected
  rw [classifyCode_tt, elim_unrecognized_eq_iff (fun _ _ => Variant.tt.inj) nofun, lookup_eq_some_iff_mem hkeys]

theorem classifyCode_tt_eq_unrecognized_iff {code : Byte} :
    (classifyCode p .tt code).variant = .unrecognized ↔ code ∉ [p.ttApproved, p.ttRejected] := by
  rw [classifyCode_tt, elim_unrecognized_eq_unrecognized_iff nofun, lookup_eq_none_iff_notMem, ttTable_keys]

/-- Settles O15: each table is a lookup, and a lookup's answer names the entry it found. -/
theorem classifyIsTheTableEntry : Obligations.ClassifyIsTheTableEntry := by
  intro table code s
  refine ⟨_, exec_classify table code, ?job, ?tt, ?media, ?devStatus, ?event⟩
  case job =>
    rintro rfl
    simp [classifyCode_job_eq_job_iff, classifyCode_job_eq_unrecognized_iff, jobTable]
  case tt =>
    rintro rfl
    simp [classifyCode_tt_eq_tt_iff, classifyCode_tt_eq_unrecognized_iff, ttTable]
  case media =>
    rintro rfl
    exact ⟨fun _ => elim_unrecognized_eq_iff (fun _ _ => Variant.media.inj) nofun,
      elim_unrecognized_eq_unrecognized_iff nofun⟩
  case devStatus =>
    rintro rfl
    exact ⟨fun _ => elim_unrecognized_eq_iff (fun _ _ => Variant.devStatus.inj) nofun,
      elim_unrecognized_eq_unrecognized_iff nofun⟩
  case event =>
    rintro rfl
    exact ⟨fun _ => elim_unrecognized_eq_iff (fun _ _ => Variant.event.inj) nofun,
      elim_unrecognized_eq_unrecognized_iff nofun⟩

theorem errLookupOut_of_length_ne {code : Bytes} (h : code.length ≠ 2) :
    errLookupOut p code = .error .badOperand := if_pos h

theorem errLookupOut_of_some {a b : Byte} {m : Bytes} (h : p.errTable.lookup (a, b) = some m) :
    errLookupOut p [a, b] = .ok (.errMessage ⟨true, m⟩) := by
  have htable : errTableMessage p [a, b] = some m := h
  simp [errLookupOut, htable]

theorem errLookupOut_of_none {a b : Byte} (h : p.errTable.lookup (a, b) = none) :
    errLookupOut p [a, b] = .ok (.errMessage ⟨false, []⟩) := by
  have htable : errTableMessage p [a, b] = none := h
  simp [errLookupOut, htable]

/-- Settles O16, by the length of the code and, for two bytes, by the table. -/
theorem errLookupIsTheTableMessage : Obligations.ErrLookupIsTheTableMessage := by
  refine fun s => ⟨fun code h => ?badLength, fun a b m h => ?listed, fun a b h => ?unlisted⟩
  case badLength =>
    rw [exec_errLookup, errLookupOut_of_length_ne h]
    rfl
  case listed =>
    rw [exec_errLookup, errLookupOut_of_some h]
    rfl
  case unlisted =>
    rw [exec_errLookup, errLookupOut_of_none h]
    rfl

/-! ### The checksum (R82, R92) -/

theorem xorBytes_singleton (b : Byte) : xorBytes [b] = b := BitVec.xor_zero

/-- Settles O9, by the checksum as a left fold. -/
theorem checksumIsTheXor : Obligations.ChecksumIsTheXor := by
  intro data s
  rw [exec_checksum, foldl_xor_zero]

/-- Settles O18: the second law from the first, the third by the mask of the flipped byte. -/
theorem xorLaws : Obligations.XorLaws := by
  refine ⟨xorBytes_append, fun s => ?_, fun s k b hk _ => xorBytes_set s k hk _⟩
  rw [xorBytes_append, xorBytes_singleton, BitVec.xor_self]
  rfl

end Sys2Proof.Machine

/-! PROOF. The statements of spec/41_frame_codec.md: what the frame commands answer (R100 to R105), and the laws of built
frames (R106, R107, R108) and of scanned candidates (R109, R110). -/

namespace Sys2Proof.Machine

variable {p : Params} {s : State}

/-! ### The answer of each command, in terms of its frame operation (R80) -/

theorem exec_buildFrame (tid ts : Bytes) (jc : Byte) (payload : Bytes) :
    exec (.buildFrame tid ts jc payload) s =
      .next (s.answer 0x10 ((buildFrameBytes s.params tid ts jc payload).map .frame)) := rfl

theorem exec_buildFrame_of_ok {tid ts payload f : Bytes} {jc : Byte}
    (h : buildFrameBytes s.params tid ts jc payload = .ok f) :
    exec (.buildFrame tid ts jc payload) s = .next (s.withResult 0x10 .ok (some (.frame f))) := by
  rw [exec_buildFrame, h]
  rfl

theorem exec_buildFrame_of_error {tid ts payload : Bytes} {jc : Byte} {e : ResultCode}
    (h : buildFrameBytes s.params tid ts jc payload = .error e) :
    exec (.buildFrame tid ts jc payload) s = .next (s.withResult 0x10 e none) := by
  rw [exec_buildFrame, h]
  rfl

theorem exec_parseFrame (data : Bytes) :
    exec (.parseFrame data) s = .next (s.withResult 0x11 .ok (some (.parsed (parseFrameHdr s.params data)))) := rfl

theorem exec_findPacket (window : Bytes) :
    exec (.findPacket window) s = .next (s.withResult 0x12 .ok (some (.scan (scanWindow s.params window)))) := rfl

/-! ### PARSE_FRAME, check by check (R101, R102) -/

/-- The first three checks of PARSE_FRAME hold of `d`: it begins with the start sentinel, and it is as long as the
payload length `l` that it declares asks for. -/
structure FrameExtent (p : Params) (d : Bytes) (l : Nat) : Prop where
  stx : byteAt d 0 = p.stx
  declared : rd16 d 33 = l
  length : d.length = 37 + l

/-- The header PARSE_FRAME reads from a valid frame with a payload of `l` bytes (R101). -/
def validHdr (d : Bytes) (l : Nat) : FrameHdr where
  isValid := true
  reason := .valid
  tidRaw := slice d 1 17
  tid := clean (slice d 1 17)
  ts := slice d 17 31
  jc := byteAt d 31
  rc := byteAt d 32
  len := l
  payload := slice d 35 (35 + l)

section
variable {d : Bytes} {l : Nat}

theorem parseFrameHdr_tooShort (h : d.length < 37) : parseFrameHdr p d = invalidHdr .tooShort := if_pos h

theorem parseFrameHdr_badStx (hlen : 37 ≤ d.length) (h : byteAt d 0 ≠ p.stx) :
    parseFrameHdr p d = invalidHdr .badStx := by
  simp [parseFrameHdr, Nat.not_lt.mpr hlen, h]

theorem parseFrameHdr_lenMismatch (hlen : 37 ≤ d.length) (hstx : byteAt d 0 = p.stx)
    (h : d.length ≠ 37 + rd16 d 33) : parseFrameHdr p d = invalidHdr .lenMismatch := by
  simp [parseFrameHdr, Nat.not_lt.mpr hlen, hstx, h]

/-- Behind the first three checks the end sentinel and the checksum decide. -/
theorem parseFrameHdr_of_extent (h : FrameExtent p d l) :
    parseFrameHdr p d =
      if byteAt d (35 + l) ≠ p.etx then invalidHdr .badEtx
      else if byteAt d (36 + l) ≠ xorBytes (d.take (36 + l)) then invalidHdr .badBcc
      else validHdr d l := by
  obtain ⟨hstx, rfl, hlen⟩ := h
  have h37 : ¬ 37 + rd16 d 33 < 37 := by omega
  simp only [parseFrameHdr, hlen, h37, hstx, ne_eq, not_true_eq_false, if_false, slice_zero]
  rfl

theorem parseFrameHdr_badEtx (h : FrameExtent p d l) (hetx : byteAt d (35 + l) ≠ p.etx) :
    parseFrameHdr p d = invalidHdr .badEtx := by
  rw [parseFrameHdr_of_extent h, if_pos hetx]

theorem parseFrameHdr_badBcc (h : FrameExtent p d l) (hetx : byteAt d (35 + l) = p.etx)
    (hbcc : byteAt d (36 + l) ≠ xorBytes (d.take (36 + l))) : parseFrameHdr p d = invalidHdr .badBcc := by
  rw [parseFrameHdr_of_extent h, if_neg (not_not_intro hetx), if_pos hbcc]

theorem parseFrameHdr_valid (h : FrameExtent p d l) (hetx : byteAt d (35 + l) = p.etx)
    (hbcc : byteAt d (36 + l) = xorBytes (d.take (36 + l))) : parseFrameHdr p d = validHdr d l := by
  rw [parseFrameHdr_of_extent h, if_neg (not_not_intro hetx), if_neg (not_not_intro hbcc)]

end

/-- Settles O22, one clause per check. -/
theorem parseFrameChecksInOrder : Obligations.ParseFrameChecksInOrder := by
  refine fun d s => ⟨_, exec_parseFrame d, parseFrameHdr_tooShort, parseFrameHdr_badStx, fun hlen hstx l hl => ?_⟩
  have extent (hlength : d.length = 37 + l) : FrameExtent s.params d l := ⟨hstx, hl.symm, hlength⟩
  rw [foldl_xor_zero]
  refine ⟨fun hlength => ?mismatch, fun hlength => parseFrameHdr_badEtx (extent hlength),
    fun hlength => parseFrameHdr_badBcc (extent hlength), fun hlength hetx hbcc => ?valid⟩
  case mismatch =>
    subst hl
    exact parseFrameHdr_lenMismatch hlen hstx hlength
  case valid =>
    rw [parseFrameHdr_valid (extent hlength) hetx hbcc, validHdr, slice_eq d 35, Nat.add_sub_cancel_left]
    rfl

/-- Settles O23: a frame that fails one of the three conditions fails that check of PARSE_FRAME. -/
theorem frameValidIffThreeConditions : Obligations.FrameValidIffThreeConditions := by
  intro f p hlen hstx
  by_cases hlength : f.length = 37 + rd16 f 33
  case neg =>
    rw [parseFrameHdr_lenMismatch hlen hstx hlength]
    simp [invalidHdr, hlength]
  have hlast : f.length - 1 = 36 + rd16 f 33 := by omega
  have extent : FrameExtent p f (rd16 f 33) := ⟨hstx, rfl, hlength⟩
  simp only [hlast, ← byteAt_eq_getD]
  by_cases hetx : byteAt f (35 + rd16 f 33) = p.etx
  case neg =>
    rw [parseFrameHdr_badEtx extent hetx]
    simp [invalidHdr, hetx]
  by_cases hbcc : byteAt f (36 + rd16 f 33) = xorBytes (f.take (36 + rd16 f 33))
  case neg =>
    rw [parseFrameHdr_badBcc extent hetx hbcc]
    simp [invalidHdr, hbcc]
  rw [parseFrameHdr_valid extent hetx hbcc]
  exact ⟨fun _ => ⟨hlength, hetx, hbcc⟩, fun _ => rfl⟩

/-! ### FIND_PACKET on noise and a candidate (R105) -/

section
variable {g c w : Bytes}

theorem scanWindow_of_no_header (hg : p.stx ∉ g) (hc : c.head? = some p.stx) (h : c.length < 35) :
    scanWindow p (g ++ c) = ⟨.incomplete, g.length, 0⟩ := by
  rw [scanWindow_append hg hc, if_pos h]

theorem scanWindow_of_whole_frame (hg : p.stx ∉ g) (hc : c.head? = some p.stx) (hall : 37 + rd16 c 33 ≤ c.length)
    (hetx : byteAt c (35 + rd16 c 33) = p.etx) : scanWindow p (g ++ c) = ⟨.complete, g.length, 37 + rd16 c 33⟩ := by
  rw [scanWindow_append hg hc, if_neg (by omega), if_pos ⟨hall, hetx⟩]

theorem scanWindow_of_part_or_bad_etx (hg : p.stx ∉ g) (hc : c.head? = some p.stx) (hheader : 35 ≤ c.length)
    (h : c.length < 37 + rd16 c 33 ∨ byteAt c (35 + rd16 c 33) ≠ p.etx) :
    scanWindow p (g ++ c) = ⟨.incomplete, g.length, 0⟩ := by
  rw [scanWindow_append hg hc, if_neg (Nat.not_lt.mpr hheader), if_neg]
  rintro ⟨hall, hetx⟩
  exact h.elim (Nat.not_lt.mpr hall) (· hetx)

/-- Everything a COMPLETE says of its window: where the candidate begins, and that its declared bytes are there with the
end sentinel in its place. -/
theorem scanWindow_eq_complete {i n : Nat} (h : scanWindow p w = ⟨.complete, i, n⟩) :
    ∃ g c, w = g ++ c ∧ g.length = i ∧ c.head? = some p.stx ∧ n = 37 + rd16 c 33 ∧ n ≤ c.length ∧
      byteAt c (35 + rd16 c 33) = p.etx := by
  obtain ⟨g, c, rfl, hi, hg, hc⟩ := scanWindow_some h nofun
  rw [scanWindow_append hg hc] at h
  split_ifs at h with hshort hwhole
  · cases h
  · obtain ⟨hall, hetx⟩ := hwhole
    cases h
    exact ⟨g, c, rfl, hi, hc, rfl, hall, hetx⟩
  · cases h

theorem byteAt_zero_of_head? {b : Byte} (h : c.head? = some b) : byteAt c 0 = b := by
  obtain ⟨c', rfl⟩ := List.head?_eq_some_iff.mp h
  rfl

end

/-- Settles O24: no start sentinel, or noise and a candidate that begins with one. -/
theorem findPacketScansTheFirstCandidate : Obligations.FindPacketScansTheFirstCandidate := by
  refine fun s => ⟨fun w hw => ?none, fun g c hg hc => ⟨fun hshort => ?noHeader, ?header⟩⟩
  case none => rw [exec_findPacket, scanWindow_none hw]
  case noHeader => rw [exec_findPacket, scanWindow_of_no_header hg hc hshort]
  case header =>
    intro l hheader hl
    obtain rfl : l = rd16 c 33 := hl
    refine ⟨fun hall hetx => ?_, fun h => ?_⟩
    · rw [exec_findPacket, scanWindow_of_whole_frame hg hc hall hetx]
    · rw [exec_findPacket, scanWindow_of_part_or_bad_etx hg hc hheader h]

/-- Settles O28: the candidate's bytes pass every check of PARSE_FRAME before the checksum. -/
theorem completeCandidateCanOnlyFailItsChecksum : Obligations.CompleteCandidateCanOnlyFailItsChecksum := by
  intro p w i n hscan
  obtain ⟨g, c, rfl, rfl, hc, rfl, hall, hetx⟩ := scanWindow_eq_complete hscan
  rw [List.drop_left]
  generalize hl : rd16 c 33 = l at *
  have extent : FrameExtent p (c.take (37 + l)) l := {
    stx := by rw [byteAt_take (by omega), byteAt_zero_of_head? hc]
    declared := by rw [rd16_take (by omega), hl]
    length := List.length_take_of_le hall }
  have hetx' : byteAt (c.take (37 + l)) (35 + l) = p.etx := by rw [byteAt_take (by omega), hetx]
  by_cases hbcc : byteAt (c.take (37 + l)) (36 + l) = xorBytes ((c.take (37 + l)).take (36 + l))
  · exact .inl (by rw [parseFrameHdr_valid extent hetx' hbcc]; rfl)
  · exact .inr (parseFrameHdr_badBcc extent hetx' hbcc)

/-- Settles O29: the candidate's end-sentinel byte is there and wrong, and appended bytes change neither it nor the
declared length. -/
theorem stalledCandidateStaysIncomplete : Obligations.StalledCandidateStaysIncomplete := by
  intro p w x i hscan hheader hall
  obtain ⟨g, c, rfl, rfl, hg, hc⟩ := scanWindow_some hscan nofun
  have hlen : (g ++ c).length - g.length = c.length := by simp
  have hdeclared : rd16 (g ++ c) (g.length + 33) = rd16 c 33 := by
    rw [rd16_append_right (by omega), Nat.add_sub_cancel_left]
  rw [hlen] at hheader hall
  rw [hdeclared] at hall
  have hetx : byteAt c (35 + rd16 c 33) ≠ p.etx := by
    intro hetx
    rw [scanWindow_of_whole_frame hg hc hall hetx] at hscan
    cases hscan
  rw [List.append_assoc]
  refine scanWindow_of_part_or_bad_etx hg (by simp [hc]) (by rw [List.length_append]; omega) (.inr ?_)
  rwa [rd16_append_left (by omega), byteAt_append_left (by omega)]

/-! ### Built frames (R100, R106, R108) -/

section
variable {tid ts payload f : Bytes} {jc : Byte}

theorem FrameFacts.extent (h : FrameFacts p tid ts jc payload f) : FrameExtent p f payload.length :=
  ⟨h.b0, rd16_eq h.l0 h.l1, h.len⟩

theorem FrameFacts.head? (h : FrameFacts p tid ts jc payload f) : f.head? = some p.stx :=
  head?_of_byteAt h.b0 (by rw [h.len]; omega)

/-- The scanner finds a built frame behind any noise and before any bytes (R108). -/
theorem FrameFacts.scanWindow_complete (h : FrameFacts p tid ts jc payload f) {g : Bytes} (hg : p.stx ∉ g)
    (x : Bytes) : scanWindow p (g ++ (f ++ x)) = ⟨.complete, g.length, f.length⟩ := by
  have hlen := h.len
  have hdeclared : rd16 (f ++ x) 33 = payload.length := by
    rw [rd16_append_left (by omega), h.extent.declared]
  have hetx : byteAt (f ++ x) (35 + payload.length) = p.etx := by
    rw [byteAt_append_left (by omega), h.etx]
  have hhead : (f ++ x).head? = some p.stx := by simp [h.head?]
  rw [scanWindow_of_whole_frame hg hhead (by rw [hdeclared, List.length_append]; omega) (by rw [hdeclared, hetx]),
    hdeclared, hlen]

/-- A built frame cut short, but not to nothing, lacks a header or a declared byte (R108). -/
theorem FrameFacts.scanWindow_take (h : FrameFacts p tid ts jc payload f) {j : Nat} (hpos : 1 ≤ j)
    (hj : j < f.length) : scanWindow p (f.take j) = ⟨.incomplete, 0, 0⟩ := by
  have hlen : (f.take j).length = j := List.length_take_of_le hj.le
  have hhead : (f.take j).head? = some p.stx := by
    rw [List.head?_take, if_neg (by omega), h.head?]
  by_cases hheader : j < 35
  · exact scanWindow_of_no_header (g := []) List.not_mem_nil hhead (by omega)
  · have hdeclared : rd16 (f.take j) 33 = payload.length := by rw [rd16_take (by omega), h.extent.declared]
    have := h.len
    exact scanWindow_of_part_or_bad_etx (g := []) List.not_mem_nil hhead (by omega) (.inl (by omega))

end

/-- Settles O21, by the cases of the builder and the bytes of what it builds. -/
theorem buildFrameLaysOutTheFrame : Obligations.BuildFrameLaysOutTheFrame := by
  intro tid ts jc payload s
  obtain ⟨badTs, tooLong, built⟩ :=
    buildFrameBytes_cases (p := s.params) (tid := tid) (ts := ts) (jc := jc) (payload := payload)
  refine ⟨fun hts => exec_buildFrame_of_error (badTs hts),
    fun hts hlong => exec_buildFrame_of_error (tooLong hts hlong), fun hts hfits => ?_⟩
  obtain ⟨f, hf⟩ := built hts hfits
  have facts := buildFrameBytes_facts hf
  have hpayload : (f.drop 35).take payload.length = payload := by
    rw [← Nat.add_sub_cancel_left (n := 35) (m := payload.length), ← slice_eq, facts.pay]
  refine ⟨f, exec_buildFrame_of_ok hf, facts.len, facts.b0, ?_, facts.ts, facts.jc, facts.rc, facts.l0, facts.l1,
    hpayload, facts.etx, ?_⟩
  · rw [← encTextField_eq]
    exact facts.tid
  · rw [foldl_xor_zero]
    exact facts.bcc

/-- Settles O25: a built frame passes every check, and its fields stand where PARSE_FRAME reads them. -/
theorem parseOfBuild : Obligations.ParseOfBuild := by
  intro p tid ts jc payload f hf
  have facts := buildFrameBytes_facts hf
  rw [parseFrameHdr_valid facts.extent facts.etx facts.bcc, validHdr, facts.tid, facts.ts, facts.jc, facts.rc,
    facts.pay]

/-- Settles O27: a built frame between noise and any bytes, and a built frame cut short. -/
theorem scannerFindsTheBuiltFrame : Obligations.ScannerFindsTheBuiltFrame := by
  intro p tid ts jc payload f hf
  have facts := buildFrameBytes_facts hf
  refine ⟨?alone, fun x => ?followed, fun j hpos hj => facts.scanWindow_take hpos hj, ?empty, fun g hg => ?behind⟩
  case alone => simpa using facts.scanWindow_complete (g := []) List.not_mem_nil []
  case followed => exact facts.scanWindow_complete (g := []) List.not_mem_nil x
  case empty => exact scanWindow_none List.not_mem_nil
  case behind => simpa using facts.scanWindow_complete hg []

/-! ### One flipped bit (R107) -/

/-- A last byte that is the checksum of those before it brings the checksum of the whole string to 0 (R92), so one test
reads every byte. -/
theorem bcc_iff_xorBytes_eq_zero {d : Bytes} {n : Nat} (h : d.length = n + 1) :
    byteAt d n = xorBytes (d.take n) ↔ xorBytes d = 0 := by
  have hsplit : d = d.take n ++ [byteAt d n] := by
    have hn : n < d.length := by omega
    rw [byteAt_eq_getD, List.getD_eq_getElem _ _ hn, List.take_append_getElem, List.take_of_length_le (by omega)]
  have hxor : xorBytes d = xorBytes (d.take n) ^^^ byteAt d n := by
    conv_lhs => rw [hsplit, xorBytes_append, xorBytes_singleton]
  rw [hxor]
  exact eq_comm.trans BitVec.xor_eq_zero_iff.symm

/-- The two bytes of the length field count at different places, so the field determines both. -/
theorem rd16_eq_rd16_iff {s t : Bytes} {i : Nat} :
    rd16 s i = rd16 t i ↔ byteAt s i = byteAt t i ∧ byteAt s (i + 1) = byteAt t (i + 1) := by
  have hs := (byteAt s i).isLt
  have ht := (byteAt t i).isLt
  simp only [rd16, ← BitVec.toNat_inj]
  omega

section
variable {f : Bytes} {k b : Nat}

@[simp] theorem length_flipBit (f : Bytes) (k b : Nat) : (flipBit f k b).length = f.length := List.length_set

theorem byteAt_flipBit_self_ne (hk : k < f.length) (hb : b < 8) : byteAt (flipBit f k b) k ≠ byteAt f k := by
  rw [byteAt_flipBit_eq hk]
  exact xor_ne_self (oneBit_ne_zero b hb)

theorem xorBytes_flipBit_ne (hk : k < f.length) (hb : b < 8) : xorBytes (flipBit f k b) ≠ xorBytes f := by
  rw [flipBit, xorBytes_set f k hk]
  exact xor_ne_self (oneBit_ne_zero b hb)

theorem rd16_flipBit_ne {i : Nat} (hk : k < f.length) (hb : b < 8) (h : k = i ∨ k = i + 1) :
    rd16 (flipBit f k b) i ≠ rd16 f i := by
  rw [ne_eq, rd16_eq_rd16_iff, not_and_or]
  obtain rfl | rfl := h
  · exact .inl (byteAt_flipBit_self_ne hk hb)
  · exact .inr (byteAt_flipBit_self_ne hk hb)

/-- A flipped bit outside the start sentinel and the length field leaves the first three checks as they were. -/
theorem FrameExtent.flipBit {l : Nat} (h : FrameExtent p f l) (h0 : k ≠ 0) (hlen : ¬ (k = 33 ∨ k = 34)) :
    FrameExtent p (flipBit f k b) l where
  stx := by rw [byteAt_flipBit_ne h0.symm, h.stx]
  declared := by
    rw [← h.declared, rd16_eq_rd16_iff]
    exact ⟨byteAt_flipBit_ne (by omega), byteAt_flipBit_ne (by omega)⟩
  length := by rw [length_flipBit, h.length]

end

/-- Settles O26: the flipped byte is the one the first failing check reads; the checksum reads them all. -/
theorem oneFlippedBitIsDetected : Obligations.OneFlippedBitIsDetected := by
  intro p tid ts jc payload f k b hf hk hb
  have facts := buildFrameBytes_facts hf
  have extent := facts.extent
  have h37 : 37 ≤ (flipBit f k b).length := by
    rw [length_flipBit, facts.len]
    omega
  split_ifs with hstx hlen hetx
  · subst hstx
    exact parseFrameHdr_badStx h37 (facts.b0 ▸ byteAt_flipBit_self_ne hk hb)
  · refine parseFrameHdr_lenMismatch h37 (by rw [byteAt_flipBit_ne (Ne.symm hstx), facts.b0]) fun heq => ?_
    have hdeclared := rd16_flipBit_ne (i := 33) hk hb hlen
    rw [length_flipBit, extent.length] at heq
    rw [extent.declared] at hdeclared
    omega
  · subst hetx
    exact parseFrameHdr_badEtx (extent.flipBit hstx hlen) (facts.etx ▸ byteAt_flipBit_self_ne hk hb)
  · have hflipped := extent.flipBit (b := b) hstx hlen
    refine parseFrameHdr_badBcc hflipped (by rw [byteAt_flipBit_ne (Ne.symm hetx), facts.etx]) fun hbcc => ?_
    have hzero : xorBytes f = 0 := (bcc_iff_xorBytes_eq_zero (by rw [facts.len]; omega)).mp facts.bcc
    have hzero' : xorBytes (flipBit f k b) = 0 :=
      (bcc_iff_xorBytes_eq_zero (by rw [hflipped.length]; omega)).mp hbcc
    exact xorBytes_flipBit_ne hk hb (hzero'.trans hzero.symm)

end Sys2Proof.Machine

/-! PROOF. The statements of spec/42_messages.md: the two request builders frame the payloads of R70 and R71 (R120 to
R122), and the response decoders read every field from its fixed offset (R123 to R129), with the reject code and message
of a transaction that is not approved (R126, R130, R132). -/

namespace Sys2Proof.Machine

variable {p : Params} {s : State}

/-! ### Request payloads (R70, R71) -/

section
variable {tid ts : Bytes} {ct tt : Byte} {amount tax charge count : Nat} {sig : Byte} {appr date time : Bytes}
  {info : Option Bytes}

/-- The four numeric fields that both requests carry, each of its fixed width. -/
def amountsText (amount tax charge count : Nat) : Bytes :=
  decimalField amount 10 ++ decimalField tax 8 ++ decimalField charge 8 ++ decimalField count 2

/-- The payload of an approval request (R70). -/
def approvalPayload (tt : Byte) (amount tax charge count : Nat) (sig : Byte) : Bytes :=
  [tt] ++ amountsText amount tax charge count ++ [sig]

/-- The payload of a cancel request with the additional information `a` (R71). -/
def cancelPayload (p : Params) (ct tt : Byte) (amount tax charge count : Nat) (sig : Byte) (appr date time a : Bytes) :
    Bytes :=
  [ct] ++ [tt] ++ amountsText amount tax charge count ++ [sig] ++ encTextField appr p.wApprno 0x20 ++ date ++ time ++
    decimalField a.length 2 ++ a

@[simp] theorem length_amountsText : (amountsText amount tax charge count).length = 28 := by
  simp [amountsText, length_decimalField]

theorem length_approvalPayload : (approvalPayload tt amount tax charge count sig).length = 30 := by
  simp [approvalPayload]

/-- R122: R10 fixes the sum of the three configured widths, so the length depends on the additional information only. -/
theorem length_cancelPayload (c : Cfg) {a : Bytes} (hdate : date.length = c.params.wOdate)
    (htime : time.length = c.params.wOtime) :
    (cancelPayload c.params ct tt amount tax charge count sig appr date time a).length = 59 + a.length := by
  have hwidths := c.cancelWidths_sum
  simp [cancelPayload, length_encTextField, length_decimalField]
  omega

/-- Each of the four numeric fields fits its width, or the configuration truncates it (R83). -/
def AmountsFit (policy : OverflowPolicy) (amount tax charge count : Nat) : Prop :=
  policy = .truncateHigh ∨ (amount < 10 ^ 10 ∧ tax < 10 ^ 8 ∧ charge < 10 ^ 8 ∧ count < 10 ^ 2)

/-- One of the four numeric fields does not fit its width. -/
def AmountsTooLarge (amount tax charge count : Nat) : Prop :=
  10 ^ 10 ≤ amount ∨ 10 ^ 8 ≤ tax ∨ 10 ^ 8 ≤ charge ∨ 10 ^ 2 ≤ count

theorem encNumFields_amounts {policy : OverflowPolicy} (h : AmountsFit policy amount tax charge count) :
    encNumFields policy [(amount, 10), (tax, 8), (charge, 8), (count, 2)] =
      .ok (amountsText amount tax charge count) := by
  rw [encNumFields_ok]
  · simp [amountsText]
  · obtain rfl | ⟨hamount, htax, hcharge, hcount⟩ := h
    · simp
    · simpa using ⟨.inr hamount, .inr htax, .inr hcharge, .inr hcount⟩

theorem encNumFields_amounts_reject (h : AmountsTooLarge amount tax charge count) :
    encNumFields .reject [(amount, 10), (tax, 8), (charge, 8), (count, 2)] = .error .valueTooLarge :=
  encNumFields_reject (by simp) (by simpa [AmountsTooLarge] using h)

/-! ### The request builders, check by check (R120, R121) -/

theorem buildApprovalFrame_badOperand (hts : ts.length ≠ 14) :
    buildApprovalFrame p tid ts tt amount tax charge count sig = .error .badOperand := if_pos hts

theorem buildApprovalFrame_valueTooLarge (hts : ts.length = 14) (hpolicy : p.overflowPolicy = .reject)
    (h : AmountsTooLarge amount tax charge count) :
    buildApprovalFrame p tid ts tt amount tax charge count sig = .error .valueTooLarge := by
  simp [buildApprovalFrame, hts, hpolicy, encNumFields_amounts_reject h]

/-- An approval request that passes its checks is what BUILD_FRAME builds of its payload. -/
theorem buildApprovalFrame_eq_buildFrameBytes (hts : ts.length = 14)
    (h : AmountsFit p.overflowPolicy amount tax charge count) :
    buildApprovalFrame p tid ts tt amount tax charge count sig =
      buildFrameBytes p tid ts p.jcApprovalReq (approvalPayload tt amount tax charge count sig) := by
  simp [buildApprovalFrame, hts, encNumFields_amounts h, approvalPayload]

theorem buildCancelFrame_badOperand
    (h : ts.length ≠ 14 ∨ date.length ≠ p.wOdate ∨ time.length ≠ p.wOtime) :
    buildCancelFrame p tid ts ct tt amount tax charge count sig appr date time info = .error .badOperand := if_pos h

/-- The three lengths that BUILD_CANCEL_REQ checks first are right (R121). -/
structure CancelLengths (p : Params) (ts date time : Bytes) : Prop where
  ts : ts.length = 14
  date : date.length = p.wOdate
  time : time.length = p.wOtime

theorem buildCancelFrame_fieldTooLong (hlen : CancelLengths p ts date time) (hinfo : 99 < (info.getD []).length) :
    buildCancelFrame p tid ts ct tt amount tax charge count sig appr date time info = .error .fieldTooLong := by
  simp [buildCancelFrame, hlen.ts, hlen.date, hlen.time, hinfo]

theorem buildCancelFrame_valueTooLarge (hlen : CancelLengths p ts date time) (hinfo : (info.getD []).length ≤ 99)
    (hpolicy : p.overflowPolicy = .reject)
    (h : AmountsTooLarge amount tax charge count) :
    buildCancelFrame p tid ts ct tt amount tax charge count sig appr date time info = .error .valueTooLarge := by
  simp [buildCancelFrame, hlen.ts, hlen.date, hlen.time, Nat.not_lt.mpr hinfo, hpolicy, encNumFields_amounts_reject h]

/-- A cancel request that passes its checks is what BUILD_FRAME builds of its payload: a count of at most 99 bytes
always fits its two digits. -/
theorem buildCancelFrame_eq_buildFrameBytes (hlen : CancelLengths p ts date time)
    (hinfo : (info.getD []).length ≤ 99)
    (h : AmountsFit p.overflowPolicy amount tax charge count) :
    buildCancelFrame p tid ts ct tt amount tax charge count sig appr date time info =
      buildFrameBytes p tid ts p.jcCancelReq
        (cancelPayload p ct tt amount tax charge count sig appr date time (info.getD [])) := by
  have hcount : encNumField p.overflowPolicy (info.getD []).length 2 = .ok (decimalField (info.getD []).length 2) :=
    encNumField_of_fits _ _ 2 (by omega) (by omega)
  simp [buildCancelFrame, hlen.ts, hlen.date, hlen.time, Nat.not_lt.mpr hinfo, encNumFields_amounts h, hcount,
    cancelPayload]

/-! ### The answer of each request builder (R80) -/

theorem exec_buildApprovalReq_of_ok {f : Bytes}
    (h : buildApprovalFrame s.params tid ts tt amount tax charge count sig = .ok f) :
    exec (.buildApprovalReq tid ts tt amount tax charge count sig) s =
      .next (s.withResult 0x20 .ok (some (.frame f))) := by
  rw [exec, execBuildApprovalReq, h]
  rfl

theorem exec_buildApprovalReq_of_error {e : ResultCode}
    (h : buildApprovalFrame s.params tid ts tt amount tax charge count sig = .error e) :
    exec (.buildApprovalReq tid ts tt amount tax charge count sig) s = .next (s.withResult 0x20 e none) := by
  rw [exec, execBuildApprovalReq, h]
  rfl

theorem exec_buildCancelReq_of_ok {f : Bytes}
    (h : buildCancelFrame s.params tid ts ct tt amount tax charge count sig appr date time info = .ok f) :
    exec (.buildCancelReq tid ts ct tt amount tax charge count sig appr date time info) s =
      .next (s.withResult 0x21 .ok (some (.frame f))) := by
  rw [exec, execBuildCancelReq, h]
  rfl

theorem exec_buildCancelReq_of_error {e : ResultCode}
    (h : buildCancelFrame s.params tid ts ct tt amount tax charge count sig appr date time info = .error e) :
    exec (.buildCancelReq tid ts ct tt amount tax charge count sig appr date time info) s =
      .next (s.withResult 0x21 e none) := by
  rw [exec, execBuildCancelReq, h]
  rfl

end

/-- A payload within the limit is framed, in a frame of 37 bytes more (R100). -/
theorem exists_buildFrameBytes_eq_ok {tid ts payload : Bytes} {jc : Byte} (hts : ts.length = 14)
    (hpayload : payload.length ≤ 65535) :
    ∃ f, buildFrameBytes p tid ts jc payload = .ok f ∧ f.length = 37 + payload.length := by
  obtain ⟨f, hf⟩ := buildFrameBytes_cases.2.2 hts hpayload
  exact ⟨f, hf, (buildFrameBytes_facts hf).len⟩

/-- Settles O30, by the checks of the builder; the payload's 30 bytes are never too long for BUILD_FRAME. -/
theorem approvalRequestIsTheFramedPayload : Obligations.ApprovalRequestIsTheFramedPayload := by
  intro tid ts tt amount tax charge inst sig s
  refine ⟨fun hts => exec_buildApprovalReq_of_error (buildApprovalFrame_badOperand hts),
    fun hts hpolicy hlarge => exec_buildApprovalReq_of_error (buildApprovalFrame_valueTooLarge hts hpolicy hlarge),
    fun hts hfits => ?_⟩
  have hlength : (approvalPayload tt amount tax charge inst sig).length = 30 := length_approvalPayload
  obtain ⟨f, hf, hlen⟩ := exists_buildFrameBytes_eq_ok (p := s.params) (tid := tid) (jc := s.params.jcApprovalReq) hts
    (hlength.trans_le (by omega))
  refine ⟨f, by omega, exec_buildApprovalReq_of_ok (by rw [buildApprovalFrame_eq_buildFrameBytes hts hfits, hf]), ?_⟩
  simpa [approvalPayload, amountsText] using exec_buildFrame_of_ok hf

/-- Settles O31, by the checks of the builder; the payload's 59 bytes and at most 99 more are never too long. -/
theorem cancelRequestIsTheFramedPayload : Obligations.CancelRequestIsTheFramedPayload := by
  intro tid ts ct tt amount tax charge inst sig appr date time info s
  refine ⟨fun hbad => exec_buildCancelReq_of_error (buildCancelFrame_badOperand hbad), fun hts hdate htime => ?_⟩
  have hlen : CancelLengths s.params ts date time := ⟨hts, hdate, htime⟩
  refine ⟨fun hinfo => exec_buildCancelReq_of_error (buildCancelFrame_fieldTooLong hlen hinfo),
    fun hinfo hpolicy hlarge =>
      exec_buildCancelReq_of_error (buildCancelFrame_valueTooLarge hlen hinfo hpolicy hlarge),
    fun hinfo hfits => ?_⟩
  have hlength : (cancelPayload s.params ct tt amount tax charge inst sig appr date time (info.getD [])).length =
      59 + (info.getD []).length := length_cancelPayload s.cfg hdate htime
  obtain ⟨f, hf, hflen⟩ := exists_buildFrameBytes_eq_ok (p := s.params) (tid := tid) (jc := s.params.jcCancelReq) hts
    (hlength.trans_le (by omega))
  refine ⟨f, by omega,
    exec_buildCancelReq_of_ok (by rw [buildCancelFrame_eq_buildFrameBytes hlen hinfo hfits, hf]), ?_⟩
  simpa [cancelPayload, amountsText, encTextField_eq] using exec_buildFrame_of_ok hf

/-! ### Fields of a layout (R123) -/

/-- Field `j` of a cut payload, counted from 1 as the layout tables do, is field `j - 1` of the layout. -/
theorem fieldAt_splitFields_pred {ws : List Nat} {payload : Bytes} {j : Nat} (hpos : 1 ≤ j) (hj : j ≤ ws.length) :
    fieldAt (splitFields ws payload) j = fieldSlice payload ws (j - 1) := by
  obtain ⟨i, rfl⟩ := Nat.exists_eq_add_of_le' hpos
  exact fieldAt_splitFields hj

/-- Byte 0 of a field that is not empty stands where the fields before it end. -/
theorem byteAt_fieldSlice_zero {payload : Bytes} {ws : List Nat} {j offset : Nat} (hoffset : (ws.take j).sum = offset)
    (hwidth : 0 < ws.getD j 0) : byteAt (fieldSlice payload ws j) 0 = payload.getD offset 0 := by
  rw [fieldSlice, byteAt_take hwidth, byteAt_drop, hoffset]
  rfl

/-- A slice that ends no earlier than its string is all of the string from its start. -/
theorem slice_eq_drop {t : Bytes} {i n : Nat} (h : t.length ≤ n) : slice t i n = t.drop i :=
  List.take_of_length_le (by rw [List.length_drop]; omega)

theorem length_cardInqWidths (l : CardInqLayout) : (cardInqWidths l).length = 7 := rfl

/-! ### DEC_APPROVAL_RSP: what it answers, field by field (R124 to R126) -/

/-- Field `j`, from 0, of an approval response under the layout `P_APPROVAL_RSP_LAYOUT`. -/
abbrev approvalField (p : Params) (payload : Bytes) (j : Nat) : Bytes :=
  fieldSlice payload (approvalWidths p.approvalLayout) j

/-- The thirteen wire fields before the two contextual ones, each read from its offset in the payload (R72, R124). -/
def commonAt (p : Params) (payload : Bytes) (rejected : Bool) : ApprovalRsp where
  transactionType := classifyCode p .tt (payload.getD 0 0)
  transactionMedia := classifyCode p .media (payload.getD 1 0)
  cardNumber := clean (approvalField p payload 2)
  approvedAmount := decNumField (approvalField p payload 3)
  tax := decNumField (approvalField p payload 4)
  serviceCharge := decNumField (approvalField p payload 5)
  installmentCount := decNumField (approvalField p payload 6)
  approvalNumber := clean (approvalField p payload 7)
  salesDate := clean (approvalField p payload 8)
  salesTime := clean (approvalField p payload 9)
  transactionId := clean (approvalField p payload 10)
  merchantId := clean (approvalField p payload 11)
  terminalNumber := clean (approvalField p payload 12)
  issuerCode := []
  issuerName := ⟨[], krValid p []⟩
  acquirerCode := []
  acquirerName := ⟨[], krValid p []⟩
  isRejected := rejected
  rejectCode := none
  rejectMessage := none

/-- The response of an approved payload: the two contextual fields hold code and name pairs (R125). -/
def approvedAt (p : Params) (payload : Bytes) : ApprovalRsp :=
  { commonAt p payload false with
    issuerCode := clean ((approvalField p payload 13).take p.issuerCodeW)
    issuerName := decLocalField p ((approvalField p payload 13).drop p.issuerCodeW)
    acquirerCode := clean ((approvalField p payload 14).take p.acquirerCodeW)
    acquirerName := decLocalField p ((approvalField p payload 14).drop p.acquirerCodeW) }

/-- The response of a payload not approved: the two contextual fields hold the reject code and message (R126). -/
def rejectedAt (p : Params) (payload : Bytes) : ApprovalRsp :=
  { commonAt p payload true with
    rejectCode := (rejection p (approvalField p payload 13) (approvalField p payload 14)).1
    rejectMessage := some (rejection p (approvalField p payload 13) (approvalField p payload 14)).2 }

section
variable {payload : Bytes}

theorem fieldAt_approvalWidths {j : Nat} (hpos : 1 ≤ j) (hj : j ≤ 15) :
    fieldAt (splitFields (approvalWidths p.approvalLayout) payload) j = approvalField p payload (j - 1) :=
  fieldAt_splitFields_pred hpos hj

theorem byteAt_approvalField_type : byteAt (approvalField p payload 0) 0 = payload.getD 0 0 :=
  byteAt_fieldSlice_zero rfl Nat.one_pos

theorem byteAt_approvalField_media : byteAt (approvalField p payload 1) 0 = payload.getD 1 0 :=
  byteAt_fieldSlice_zero rfl Nat.one_pos

theorem decLocalField_text (region : Bytes) : (decLocalField p region).text = clean region := rfl

theorem decLocalField_nil : decLocalField p [] = ⟨[], krValid p []⟩ := rfl

theorem approvalCommon_splitFields (rejected : Bool) :
    approvalCommon p (splitFields (approvalWidths p.approvalLayout) payload) rejected =
      commonAt p payload rejected := by
  simp only [approvalCommon, commonAt, fieldAt_approvalWidths, Nat.reduceLeDiff, Nat.le_refl, Nat.reduceSub,
    byteAt_approvalField_type, byteAt_approvalField_media, decLocalField_nil]

/-- Both contextual fields are 20 bytes wide, so what stands behind a code is the rest of its field. -/
theorem approvalApproved_splitFields :
    approvalApproved p (splitFields (approvalWidths p.approvalLayout) payload) = approvedAt p payload := by
  have hissuer : (approvalField p payload 13).length ≤ 20 := List.length_take_le _ _
  have hacquirer : (approvalField p payload 14).length ≤ 20 := List.length_take_le _ _
  rw [approvalApproved, approvedAt, approvalCommon_splitFields, fieldAt_approvalWidths (by omega) (by omega),
    fieldAt_approvalWidths (by omega) (by omega), slice_zero, slice_zero, slice_eq_drop hissuer,
    slice_eq_drop hacquirer]

theorem approvalRejected_splitFields :
    approvalRejected p (splitFields (approvalWidths p.approvalLayout) payload) = rejectedAt p payload := by
  rw [approvalRejected, rejectedAt, approvalCommon_splitFields, fieldAt_approvalWidths (by omega) (by omega),
    fieldAt_approvalWidths (by omega) (by omega)]

theorem decApprovalOut_short (h : payload.length < (approvalWidths p.approvalLayout).sum) :
    decApprovalOut p payload = .error .decodeShort := by
  rw [decApprovalOut, (fields_eq _ _).1 h]

/-- What DEC_APPROVAL_RSP answers to a payload of at least the layout: byte 0 alone decides between the two (R124). -/
theorem decApprovalOut_of_layout (h : (approvalWidths p.approvalLayout).sum ≤ payload.length) :
    decApprovalOut p payload =
      .ok (.approvalRsp (if payload.getD 0 0 = p.ttApproved then approvedAt p payload else rejectedAt p payload)) := by
  rw [decApprovalOut, (fields_eq _ _).2 h]
  simp only [fieldAt_approvalWidths (Nat.le_refl 1) (by omega : 1 ≤ 15), Nat.sub_self, byteAt_approvalField_type,
    approvalApproved_splitFields, approvalRejected_splitFields, isRejected, bne_iff_ne, ne_eq, ite_not]
  split <;> rfl

theorem exec_decApprovalRsp :
    exec (.decApprovalRsp payload) s = .next (s.answer 0x22 (decApprovalOut s.params payload)) := rfl

theorem exec_decApprovalRsp_approved (h : (approvalWidths s.params.approvalLayout).sum ≤ payload.length)
    (htype : payload.getD 0 0 = s.params.ttApproved) :
    exec (.decApprovalRsp payload) s =
      .next (s.withResult 0x22 .ok (some (.approvalRsp (approvedAt s.params payload)))) := by
  rw [exec_decApprovalRsp, decApprovalOut_of_layout h, if_pos htype]
  rfl

theorem exec_decApprovalRsp_rejected (h : (approvalWidths s.params.approvalLayout).sum ≤ payload.length)
    (htype : payload.getD 0 0 ≠ s.params.ttApproved) :
    exec (.decApprovalRsp payload) s =
      .next (s.withResult 0x22 .ok (some (.approvalRsp (rejectedAt s.params payload)))) := by
  rw [exec_decApprovalRsp, decApprovalOut_of_layout h, if_neg htype]
  rfl

end

/-- Settles O32, by the length of the payload; the layout written out in the statement is `approvalWidths`. -/
theorem approvalResponseApproved : Obligations.ApprovalResponseApproved := by
  intro payload s w hw
  replace hw : w = approvalWidths s.params.approvalLayout := hw
  subst hw
  refine ⟨fun hshort => ?short, fun hlen htype => ?approved⟩
  case short =>
    rw [exec_decApprovalRsp, decApprovalOut_short hshort]
    rfl
  case approved =>
    rw [exec_decApprovalRsp_approved hlen htype, approvedAt, commonAt]
    simp only [decLocalField, approvalField]

/-! ### The reject code and message (R126) -/

section
variable {m1 : LocalText} {s2 : Bytes} {c0 c1 : Byte} {rest : Bytes}

/-- A hyphen and two more bytes are a code, with the table's message. -/
theorem rejectionOf_listed {m : Bytes} (h : p.errTable.lookup (c0, c1) = some m) :
    rejectionOf p m1 (0x2D :: c0 :: c1 :: rest) = (some [c0, c1], ⟨m, true, true⟩) := by
  have htable : errTableMessage p (slice (0x2D :: c0 :: c1 :: rest) 1 3) = some m := h
  rw [rejectionOf, if_pos ⟨by simp, rfl⟩, htable]
  rfl

/-- A code that the table lacks has the cleaned rest of the field as its message. -/
theorem rejectionOf_unlisted (h : p.errTable.lookup (c0, c1) = none) :
    rejectionOf p m1 (0x2D :: c0 :: c1 :: rest) =
      (some [c0, c1], ⟨clean rest, krValid p (clean rest), false⟩) := by
  have htable : errTableMessage p (slice (0x2D :: c0 :: c1 :: rest) 1 3) = none := h
  rw [rejectionOf, if_pos ⟨by simp, rfl⟩, htable, slice_length_self]
  rfl

theorem rejectionOf_no_code (h : ∀ c0 c1 rest, s2 ≠ 0x2D :: c0 :: c1 :: rest) :
    rejectionOf p m1 s2 = (none, ⟨m1.text, m1.krOk, false⟩) := by
  rw [rejectionOf, if_neg]
  rintro ⟨hlen, hhyphen⟩
  match s2, hlen with
  | b :: c0 :: c1 :: rest, _ => exact h c0 c1 rest (congrArg (· :: c0 :: c1 :: rest) hhyphen)

variable {payload : Bytes}

theorem rejectedAt_of_rejectionOf {code : Option Bytes} {msg : RejectMessage}
    (h : rejectionOf p (decLocalField p (approvalField p payload 13)) (clean (approvalField p payload 14)) =
      (code, msg)) :
    (rejectedAt p payload).rejectCode = code ∧ (rejectedAt p payload).rejectMessage = some msg := by
  have hrejection : rejection p (approvalField p payload 13) (approvalField p payload 14) = (code, msg) := by
    rw [rejection, decLocalField_text, h]
  simp [rejectedAt, hrejection]

theorem rejectedAt_listed {m : Bytes} (hcode : clean (approvalField p payload 14) = 0x2D :: c0 :: c1 :: rest)
    (h : p.errTable.lookup (c0, c1) = some m) :
    (rejectedAt p payload).rejectCode = some [c0, c1] ∧
      (rejectedAt p payload).rejectMessage = some ⟨m, true, true⟩ :=
  rejectedAt_of_rejectionOf (by rw [hcode, rejectionOf_listed h])

theorem rejectedAt_unlisted (hcode : clean (approvalField p payload 14) = 0x2D :: c0 :: c1 :: rest)
    (h : p.errTable.lookup (c0, c1) = none) :
    (rejectedAt p payload).rejectCode = some [c0, c1] ∧
      (rejectedAt p payload).rejectMessage = some ⟨clean rest, krValid p (clean rest), false⟩ :=
  rejectedAt_of_rejectionOf (by rw [hcode, rejectionOf_unlisted h])

theorem rejectedAt_no_code (h : ∀ c0 c1 rest, clean (approvalField p payload 14) ≠ 0x2D :: c0 :: c1 :: rest) :
    (rejectedAt p payload).rejectCode = none ∧ (rejectedAt p payload).rejectMessage =
      some ⟨clean (approvalField p payload 13), krValid p (clean (approvalField p payload 13)), false⟩ :=
  rejectedAt_of_rejectionOf (by rw [rejectionOf_no_code h, decLocalField])

end

/-- Settles O33: the fields are those of `rejectedAt`, and the cleaned second field has a code or not. -/
theorem approvalResponseRejected : Obligations.ApprovalResponseRejected := by
  rintro payload s w rfl hlen htype
  refine ⟨_, exec_decApprovalRsp_rejected hlen htype, ?_, ?_, ?_, ?_, ?_, ?_, ?_, ?_, ?_, ?_, ?_, ?_, ?_, ?_, ?_, ?_,
    ?_, ?_, fun c0 c1 rest hcode => ?code, fun hnone => ?noCode⟩
  case code =>
    refine ⟨?_, fun m h => (rejectedAt_listed hcode h).2, fun h => (rejectedAt_unlisted hcode h).2⟩
    cases h : s.params.errTable.lookup (c0, c1) with
    | none => exact (rejectedAt_unlisted hcode h).1
    | some m => exact (rejectedAt_listed hcode h).1
  case noCode => exact rejectedAt_no_code hnone
  all_goals simp only [rejectedAt, commonAt]

/-- Whitespace and zeros behind a text do not count. -/
theorem clean_append_blank {t pad : Bytes} (h : ∀ b ∈ pad, isWS b = true ∨ b = 0) : clean (t ++ pad) = clean t := by
  have hblank : ∀ b ∈ pad.filter (· != 0), isWS b = true := by
    simp only [List.mem_filter, bne_iff_ne, ne_eq]
    exact fun b ⟨hb, hne⟩ => (h b hb).resolve_right hne
  rw [clean, clean, List.filter_append, List.dropWhile_append]
  split_ifs with hempty
  · rw [List.dropWhile_eq_nil_iff.mpr hblank, List.isEmpty_iff.mp hempty]
  · rw [List.reverse_append, List.dropWhile_append_of_pos (by simpa using hblank)]

/-- Settles O34: the padding does not count, and the cleaned field begins with a hyphen and the code. -/
theorem knownRejectCodeGivesTheTableMessage : Obligations.KnownRejectCodeGivesTheTableMessage := by
  rintro payload pad m s w rfl hlen htype hpad hfield htable
  have hne : payload.getD 0 0 ≠ s.params.ttApproved := htype ▸ s.cfg.ttApproved_ne_ttRejected.symm
  have hclean : clean (approvalField s.params payload 14) =
      [0x2D, 0x30, 0x37, 0x53, 0x4F, 0x4D, 0x45, 0x20, 0x54, 0x45, 0x58, 0x54] := by
    rw [approvalField, hfield, clean_append_blank fun b hb => (hpad b hb).imp_left (by rintro rfl; rfl)]
    decide
  exact ⟨_, exec_decApprovalRsp_rejected hlen hne, rfl, rejectedAt_listed hclean htable⟩

/-! ### The other response decoders (R127 to R129) -/

theorem exec_decCardinqRsp (payload : Bytes) :
    exec (.decCardinqRsp payload) s = .next (s.answer 0x23 (decCardInqOut s.params payload)) := rfl

theorem exec_decDevchkRsp (payload : Bytes) :
    exec (.decDevchkRsp payload) s = .next (s.answer 0x24 (decDevchkOut s.params payload)) := rfl

theorem exec_decEventRsp (payload : Bytes) :
    exec (.decEventRsp payload) s = .next (s.answer 0x25 (decEventOut s.params payload)) := rfl

/-- Settles O35, by the length of the payload; the layout written out in the statement is `cardInqWidths`. -/
theorem cardInquiryResponseFields : Obligations.CardInquiryResponseFields := by
  intro payload s w hw
  replace hw : w = cardInqWidths s.params.cardInqLayout := hw
  have hlength : w.length = 7 := hw ▸ length_cardInqWidths _
  refine ⟨fun hshort => ?short, fun hlen => ?decoded⟩
  case short =>
    rw [exec_decCardinqRsp, decCardInqOut, ← hw, (fields_eq _ _).1 hshort]
    rfl
  case decoded =>
    have hmedia : byteAt (fieldSlice payload w 0) 0 = payload.getD 0 0 := by
      subst hw
      exact byteAt_fieldSlice_zero rfl Nat.one_pos
    rw [exec_decCardinqRsp, decCardInqOut, ← hw, (fields_eq _ _).2 hlen]
    simp only [fieldAt_splitFields_pred, hlength, Nat.reduceLeDiff, Nat.le_refl, Nat.reduceSub, hmedia]
    rfl

/-- Settles O36, by the length of the payload. -/
theorem deviceCheckStatuses : Obligations.DeviceCheckStatuses := by
  refine fun s => ⟨fun payload hshort => ?short, fun a b c d rest => ?decoded⟩
  case short =>
    rw [exec_decDevchkRsp, decDevchkOut, (fields_eq _ _).1 hshort]
    rfl
  case decoded =>
    rw [exec_decDevchkRsp, decDevchkOut, (fields_eq _ _).2 (by simp)]
    rfl

/-- Settles O37, by whether there is a byte 0. -/
theorem eventResponseType : Obligations.EventResponseType := by
  refine fun s => ⟨rfl, fun a rest => ?_⟩
  rw [exec_decEventRsp, decEventOut, (fields_eq _ _).2 (by simp)]
  rfl

end Sys2Proof.Machine

/-! PROOF. The statements of spec/43_protocol_engine.md: each engine event (R153 to R164), one pass of the reassembly loop
(R161), a run of TICKs (R158), the rows of the transition table (R169), the results owed (R166) and the ticks a send can
still take (R167). -/

namespace Sys2Proof.Machine

variable {s : State}

/-! ### CONNECT, OPEN_DONE and DISCONNECT (R153 to R155) -/

/-- Settles O39, by the state of the connection. -/
theorem connectOpensTheChannel : Obligations.ConnectOpensTheChannel := by
  refine fun address baud s => ⟨fun hc => ?connected, fun hc ho => ?opening, fun hc ho => ?closed⟩
  case connected => exact if_pos hc
  case opening => exact (if_neg (by simp [hc])).trans (if_pos ho)
  case closed => exact (if_neg (by simp [hc])).trans (if_neg (by simp [ho]))

/-- Settles O40, by whether a CONNECT is opening. -/
theorem openDoneCompletesTheConnect : Obligations.OpenDoneCompletesTheConnect := by
  refine fun s => ⟨fun ok ho => ?stale, fun ho => ?opened, fun ho => ?failed⟩
  case stale => simp [exec, execOpenDone, ho]
  case opened =>
    simp [exec, execOpenDone, ho, State.notify, State.result]
  case failed =>
    simp [exec, execOpenDone, ho, State.withResult, State.result]

/-- Settles O41, by the state of the connection and of the send. -/
theorem disconnectCancelsAndCloses : Obligations.DisconnectCancelsAndCloses := by
  refine fun s => ⟨fun ho => ?opening, fun ho hc => ?closed, fun ho hc hp => ?idle, fun ho hc hp => ?inFlight⟩
  case opening => simp [exec, execDisconnect, ho, State.request, State.result]
  case closed => simp [exec, execDisconnect, ho, hc, State.withResult, State.result]
  case idle => simp [exec, execDisconnect, ho, hc, hp, State.request, State.notify, State.result]
  case inFlight =>
    simp [exec, execDisconnect, ho, hc, hp, State.request, State.notify, State.result, State.sendIdle]

/-! ### SEND and TX_DONE (R156, R157) -/

/-- Settles O42, by the connection and the phase. -/
theorem sendWritesOneFrameAtATime : Obligations.SendWritesOneFrameAtATime := by
  refine fun frame expectResponse s => ⟨fun hc => ?notConnected, fun hc hp => ?busy, fun hc hp => ?accepted⟩
  case notConnected => exact if_pos (by simp [hc])
  case busy => exact (if_neg (by simp [hc])).trans (if_pos hp)
  case accepted => exact (if_neg (by simp [hc])).trans (if_neg (by simp [hp]))

/-- Settles O43, by the phase and the provider's answer. -/
theorem txDoneStartsTheAckWait : Obligations.TxDoneStartsTheAckWait := by
  refine fun s => ⟨fun ok hp => ?ignored, fun hp => ?drained, fun hp => ?failed⟩
  case ignored => exact if_pos hp
  case drained => exact (if_neg (by simp [hp])).trans (if_pos rfl)
  case failed =>
    rw [← State.finishSend_error s (by simp)]
    exact (if_neg (by simp [hp])).trans (if_neg (by simp))

/-! ### TICK (R158) -/

theorem exec_tick_of_noWait (hp : s.phase = .idle ∨ s.phase = .txDrain) : exec .tick s = .next s := by
  obtain hp | hp := hp <;> simp only [exec, execTick, hp]

theorem exec_tick_below (hp : s.phase = .ackWait ∧ s.timer + 1 < s.params.ackTimeout ∨
    s.phase = .rspWait ∧ s.timer + 1 < s.params.rspTimeout) : exec .tick s = .next { s with timer := s.timer + 1 } := by
  obtain ⟨hp, hlt⟩ | ⟨hp, hlt⟩ := hp
  · simp only [exec, execTick, hp]
    exact if_neg (Nat.not_le.2 hlt)
  · simp only [exec, execTick, hp]
    exact if_neg (Nat.not_le.2 hlt)

/-- The timer a retry starts from is no part of what the retry leaves. -/
theorem State.retried_timer (s : State) (n : Nat) : State.retried { s with timer := n } = s.retried := by
  simp only [State.retried, State.frameWritten, State.withResult, State.sendIdle]

theorem exec_tick_ackTimeout (hp : s.phase = .ackWait) (hle : s.params.ackTimeout ≤ s.timer + 1) :
    exec .tick s = .next s.retried := by
  rw [← s.retried_timer (s.timer + 1), ← State.retry_eq]
  simp only [exec, execTick, hp]
  exact if_pos hle

theorem exec_tick_rspTimeout (hp : s.phase = .rspWait) (hle : s.params.rspTimeout ≤ s.timer + 1) :
    exec .tick s = .next (s.withResult 0x32 .responseTimeout none).sendIdle := by
  simp only [exec, execTick, hp]
  exact if_pos hle

/-- Settles O44, by the phase and the timer. -/
theorem tickCountsInTheTwoWaits : Obligations.TickCountsInTheTwoWaits :=
  fun _ => ⟨exec_tick_of_noWait, fun hp hlt => exec_tick_below (.inl ⟨hp, hlt⟩), exec_tick_ackTimeout,
    fun hp hlt => exec_tick_below (.inr ⟨hp, hlt⟩), exec_tick_rspTimeout⟩

/-! ### RX_CHUNK of a handshake byte (R159, R160) -/

theorem exec_rxChunk_handshake (hc : s.connected = true) {b : Byte} (hb : b = s.params.ack ∨ b = s.params.nak) :
    exec (.rxChunk [b]) s = .next (s.handshake b) := by
  simp [exec, execRxChunk, hc, hb]

theorem exec_rxChunk_append (hc : s.connected = true) {chunk : Bytes} (hne : chunk ≠ [])
    (hb : ∀ b, chunk = [b] → b ≠ s.params.ack ∧ b ≠ s.params.nak) :
    exec (.rxChunk chunk) s = .next (State.reassemble { s with rxbuf := s.rxbuf ++ chunk }) := by
  have hlone : ¬(chunk.length = 1 ∧ (byteAt chunk 0 = s.params.ack ∨ byteAt chunk 0 = s.params.nak)) := by
    rintro ⟨hlen, h⟩
    obtain ⟨b, rfl⟩ := List.length_eq_one_iff.1 hlen
    exact h.elim (hb b rfl).1 (hb b rfl).2
  simp only [exec, execRxChunk, hc, List.length_eq_zero_iff, hne, if_neg hlone]
  rfl

theorem State.handshake_of_ne_ackWait (hp : s.phase ≠ .ackWait) (b : Byte) : s.handshake b = s := if_pos hp

theorem State.handshake_ack (hp : s.phase = .ackWait) : s.handshake s.params.ack =
    if s.expect then { s with phase := .rspWait, timer := 0 } else s.finishSend .ok none :=
  (if_neg (not_not.2 hp)).trans (if_pos rfl)

theorem State.handshake_nak (hp : s.phase = .ackWait) : s.handshake s.params.nak = s.retried :=
  ((if_neg (not_not.2 hp)).trans (if_neg s.cfg.ack_ne_nak.symm)).trans s.retry_eq

/-- Settles O45, by the phase and the byte. -/
theorem handshakeByteResolvesTheAckWait : Obligations.HandshakeByteResolvesTheAckWait := by
  refine fun s => ⟨fun chunk hc => ?closed, ?empty, fun b hc hb hp => ?dropped, fun hc hp hx => ?done,
    fun hc hp hx => ?acked, fun hc hp => ?nacked⟩
  case closed => simp [exec, execRxChunk, hc]
  case empty => simp [exec, execRxChunk]
  case dropped => rw [exec_rxChunk_handshake hc hb, State.handshake_of_ne_ackWait hp]
  case done =>
    rw [exec_rxChunk_handshake hc (.inl rfl), State.handshake_ack hp, if_neg (by simp [hx]), State.finishSend_ok]
  case acked => rw [exec_rxChunk_handshake hc (.inl rfl), State.handshake_ack hp, if_pos hx]
  case nacked => rw [exec_rxChunk_handshake hc (.inr rfl), State.handshake_nak hp]

/-! ### One complete candidate (R162) -/

/-- Settles O47, by the outcomes of `dispatch`, whose guards exclude each other. -/
theorem dispatchDeliversTheFrame : Obligations.DispatchDeliversTheFrame := by
  rintro f s h rfl
  obtain ⟨hbad, e⟩ | ⟨⟨hok, hjc⟩, e⟩ | ⟨⟨hok, hjc⟩, hp, e⟩ | ⟨⟨hok, hjc, hp⟩, e⟩ := s.dispatch_cases f
  · simp [e, hbad, State.txEmit]
  · simp [e, hok, hjc, State.notify]
  · simp [e, hok, hjc, hp, State.txEmit, State.finishSend, State.result, State.sendIdle]
  · simp [e, hok, hjc, hp, State.notify]

/-! ### READ_REG (R164) -/

theorem exec_readReg_of_none {n : Nat} (h : readRegValue n s = none) :
    exec (.readReg n) s = .next (s.withResult 0x33 .badOperand none) := by
  simp only [exec, execReadReg, h]
  rfl

/-- Settles O48, register by register. -/
theorem readRegShowsTheEngineState : Obligations.ReadRegShowsTheEngineState := by
  refine fun s => ⟨exec_readReg_of_some ?flags, exec_readReg_of_some ?phase, exec_readReg_of_some rfl,
    exec_readReg_of_some rfl, exec_readReg_of_some rfl, exec_readReg_of_some ?sendFlags,
    fun n hn => exec_readReg_of_none ?none⟩
  case flags => cases hc : s.connected <;> cases ho : s.opening <;> simp [readRegValue, hc, ho]
  case phase => cases hp : s.phase <;> simp [readRegValue, Phase.code, hp]
  case sendFlags => cases hx : s.expect <;> cases ho : s.rxOverflow <;> simp [readRegValue, hx, ho]
  case none =>
    obtain ⟨m, rfl⟩ := Nat.exists_eq_add_of_lt hn
    rw [Nat.add_assoc, Nat.add_comm]
    rfl

end Sys2Proof.Machine

namespace Sys2Proof.Machine

variable {s : State}

/-! ### A run of TICKs (R158, R28) -/

/-- One step more is the step of the state the run has reached. -/
theorem run_succ_of_run {M : Host.Core} {k : Nat} {s u : M.State} (h : M.run k s = .next u) :
    M.run (k + 1) s = M.step u := by
  induction k generalizing s with
  | zero =>
    cases h
    rw [Host.Core.run]
    cases M.step u <;> rfl
  | succ k ih =>
    rw [Host.Core.run] at h ⊢
    cases hs : M.step s with
    | next s' =>
      simp only [hs] at h ⊢
      exact ih h
    | fault r | refused r =>
      rw [hs] at h
      cases h

/-- The event record of a TICK (R77). -/
theorem decode_tick : decode ⟨0x42, []⟩ = .ok .tick := decode_eq_ok_iff.2 ⟨rfl, rfl⟩

theorem step_tick (s : State) (rest : List EventRecord) :
    step { s with input := ⟨0x42, []⟩ :: rest } = exec .tick { s with input := rest } :=
  step_of_decode_ok rfl decode_tick

/-- TICKs that do not bring the timer of a wait to its limit are counted, one by one. -/
theorem run_ticks_below {k : Nat} {rest : List EventRecord} (hin : s.input = List.replicate k ⟨0x42, []⟩ ++ rest)
    (hp : s.phase = .ackWait ∧ s.timer + k < s.params.ackTimeout ∨
      s.phase = .rspWait ∧ s.timer + k < s.params.rspTimeout) :
    Sys2Proof.core.run k s = .next { s with timer := s.timer + k, input := rest } := by
  induction k generalizing rest with
  | zero =>
    obtain rfl : s.input = rest := hin
    rfl
  | succ k ih =>
    rw [List.replicate_succ', List.append_assoc] at hin
    rw [run_succ_of_run (ih hin (hp.imp (.imp_right (by omega)) (.imp_right (by omega))))]
    exact (step_tick { s with timer := s.timer + k } rest).trans (exec_tick_below hp)

/-- The TICK that brings the timer of a wait to its limit, after those that only counted. -/
theorem run_ticks_last {k : Nat} {rest : List EventRecord}
    (hin : s.input = List.replicate (k + 1) ⟨0x42, []⟩ ++ rest)
    (hp : s.phase = .ackWait ∧ s.timer + k < s.params.ackTimeout ∨
      s.phase = .rspWait ∧ s.timer + k < s.params.rspTimeout) :
    Sys2Proof.core.run (k + 1) s = exec .tick { s with timer := s.timer + k, input := rest } := by
  rw [List.replicate_succ', List.append_assoc] at hin
  rw [run_succ_of_run (run_ticks_below hin hp)]
  exact step_tick { s with timer := s.timer + k } rest

/-- Settles O59: all TICKs but the last only count, and the last meets the limit. -/
theorem waitsExpireOnTheirLastTick : Obligations.WaitsExpireOnTheirLastTick := by
  refine fun k s rest hin => ⟨fun hp hlt => run_ticks_below hin (.inl ⟨hp, hlt⟩), fun hp hk heq => ?ack,
    fun hp hlt => run_ticks_below hin (.inr ⟨hp, hlt⟩), fun hp hk heq => ?rsp⟩
  case ack =>
    obtain ⟨k, rfl⟩ := Nat.exists_eq_succ_of_ne_zero hk.ne'
    rw [run_ticks_last hin (.inl ⟨hp, by omega⟩), exec_tick_ackTimeout (by exact hp) (by exact heq.ge)]
    exact congrArg _ (State.retried_timer { s with input := rest } _)
  case rsp =>
    obtain ⟨k, rfl⟩ := Nat.exists_eq_succ_of_ne_zero hk.ne'
    rw [run_ticks_last hin (.inr ⟨hp, by omega⟩), exec_tick_rspTimeout (by exact hp) (by exact heq.ge)]
    rfl

end Sys2Proof.Machine

namespace Sys2Proof.Machine

/-! ### One pass of the reassembly loop (R161, R163) -/

section
variable {s : State} {g c : Bytes}

/-- The bytes before the first start sentinel are noise. -/
theorem exists_rxbuf_split (h : s.params.stx ∈ s.rxbuf) :
    ∃ g c, s.rxbuf = g ++ c ∧ s.params.stx ∉ g ∧ c.head? = some s.params.stx := by
  obtain ⟨i, hi⟩ := Option.ne_none_iff_exists'.1 (find_eq_none_iff.not_left.2 h)
  obtain ⟨g, c, hgc, -, hg⟩ := find_eq_some hi
  exact ⟨g, _, hgc, hg, rfl⟩

/-- A candidate is complete, with at least the 37 bytes of an empty frame, or it is not. -/
theorem scanWindow_candidate_cases {p : Params} (hc : c.head? = some p.stx) :
    (∃ n, 37 ≤ n ∧ scanWindow p c = ⟨.complete, 0, n⟩) ∨ scanWindow p c = ⟨.incomplete, 0, 0⟩ := by
  have hscan := scanWindow_append (g := []) (by simp) hc
  rw [List.nil_append] at hscan
  split_ifs at hscan
  · exact .inr hscan
  · exact .inl ⟨_, Nat.le_add_right _ _, hscan⟩
  · exact .inr hscan

theorem State.reassembleLoop_noise (n : Nat) (h : s.params.stx ∉ s.rxbuf) :
    State.reassembleLoop (n + 1) s = { s with rxbuf := [] } := by
  simp only [State.reassembleLoop, find_eq_none_iff.2 h]

/-- A pass that found a candidate, in terms of the scan of the candidate. -/
theorem State.reassembleLoop_candidate (n : Nat) (hb : s.rxbuf = g ++ c) (hg : s.params.stx ∉ g)
    (hc : c.head? = some s.params.stx) :
    State.reassembleLoop (n + 1) s =
      if (scanWindow s.params c).status ≠ .complete then
        if s.params.rxbufCap < c.length then
          State.reassembleLoop n { s with rxbuf := c.drop 1, rxOverflow := true }
        else { s with rxbuf := c }
      else
        State.reassembleLoop n (State.dispatch (c.take (scanWindow s.params c).length)
          { s with rxbuf := c.drop (scanWindow s.params c).length }) := by
  obtain ⟨c, rfl⟩ := List.head?_eq_some_iff.1 hc
  have hfind : find s.rxbuf s.params.stx = some g.length := by rw [hb, find_append_cons hg]
  have hcut : slice s.rxbuf g.length s.rxbuf.length = s.params.stx :: c := by
    rw [slice_length_self, hb, List.drop_left]
  simp only [State.reassembleLoop, hfind, hcut, slice_zero, slice_length_self, State.resync]

theorem State.reassembleLoop_complete (n : Nat) (hb : s.rxbuf = g ++ c) (hg : s.params.stx ∉ g)
    (hc : c.head? = some s.params.stx) {k : Nat} (hscan : scanWindow s.params c = ⟨.complete, 0, k⟩) :
    State.reassembleLoop (n + 1) s =
      State.reassembleLoop n (State.dispatch (c.take k) { s with rxbuf := c.drop k }) := by
  rw [State.reassembleLoop_candidate n hb hg hc, hscan]
  exact if_neg (by simp)

theorem State.reassembleLoop_keep (n : Nat) (hb : s.rxbuf = g ++ c) (hg : s.params.stx ∉ g)
    (hc : c.head? = some s.params.stx) (hscan : scanWindow s.params c = ⟨.incomplete, 0, 0⟩)
    (hcap : c.length ≤ s.params.rxbufCap) : State.reassembleLoop (n + 1) s = { s with rxbuf := c } := by
  rw [State.reassembleLoop_candidate n hb hg hc, hscan, if_pos (by simp), if_neg (Nat.not_lt.2 hcap)]

theorem State.reassembleLoop_resync (n : Nat) (hb : s.rxbuf = g ++ c) (hg : s.params.stx ∉ g)
    (hc : c.head? = some s.params.stx) (hscan : scanWindow s.params c = ⟨.incomplete, 0, 0⟩)
    (hcap : s.params.rxbufCap < c.length) :
    State.reassembleLoop (n + 1) s = State.reassembleLoop n { s with rxbuf := c.drop 1, rxOverflow := true } := by
  rw [State.reassembleLoop_candidate n hb hg hc, hscan, if_pos (by simp), if_pos hcap]

theorem length_drop_lt (hb : s.rxbuf = g ++ c) (hc : c.head? = some s.params.stx) {k : Nat} (hk : 0 < k) :
    (c.drop k).length < s.rxbuf.length := by
  obtain ⟨c, rfl⟩ := List.head?_eq_some_iff.1 hc
  simp only [hb, List.length_append, List.length_drop, List.length_cons]
  omega

end

/-- With more passes than the buffer has bytes, their number does not matter: every pass that goes on shortens the
buffer. -/
theorem State.reassembleLoop_fuel {n m : Nat} {s : State} (hn : s.rxbuf.length < n) (hm : s.rxbuf.length < m) :
    State.reassembleLoop n s = State.reassembleLoop m s := by
  induction n generalizing m s with
  | zero => omega
  | succ n ih =>
    obtain ⟨m, rfl⟩ := Nat.exists_eq_succ_of_ne_zero (Nat.ne_zero_of_lt hm)
    by_cases hstx : s.params.stx ∈ s.rxbuf
    case neg => rw [State.reassembleLoop_noise n hstx, State.reassembleLoop_noise m hstx]
    obtain ⟨g, c, hb, hg, hc⟩ := exists_rxbuf_split hstx
    have hshort : ∀ {k : Nat}, 0 < k → (c.drop k).length < n ∧ (c.drop k).length < m := fun hk => by
      have := length_drop_lt hb hc hk
      omega
    obtain ⟨k, hk, hscan⟩ | hscan := scanWindow_candidate_cases hc
    · rw [State.reassembleLoop_complete n hb hg hc hscan, State.reassembleLoop_complete m hb hg hc hscan]
      obtain ⟨hrxbuf, -⟩ := State.dispatch_frame { s with rxbuf := c.drop k } (c.take k)
      have hk' := hshort (Nat.lt_of_lt_of_le (by omega) hk)
      exact ih (hrxbuf ▸ hk'.1) (hrxbuf ▸ hk'.2)
    · rcases Nat.lt_or_ge s.params.rxbufCap c.length with hcap | hcap
      · rw [State.reassembleLoop_resync n hb hg hc hscan hcap, State.reassembleLoop_resync m hb hg hc hscan hcap]
        exact ih (hshort Nat.one_pos).1 (hshort Nat.one_pos).2
      · rw [State.reassembleLoop_keep n hb hg hc hscan hcap, State.reassembleLoop_keep m hb hg hc hscan hcap]

/-- The passes that are left after a pass are those of `reassemble` from there. -/
theorem State.reassembleLoop_eq_reassemble {n : Nat} {s : State} (h : s.rxbuf.length < n) :
    State.reassembleLoop n s = s.reassemble :=
  State.reassembleLoop_fuel h (Nat.lt_succ_self _)

/-- Settles O46, by one pass of the loop in each of its cases. -/
theorem chunkIsAppendedAndReassembled : Obligations.ChunkIsAppendedAndReassembled := by
  refine ⟨fun chunk s hc hne hb => exec_rxChunk_append hc hne hb, fun s hstx => State.reassembleLoop_noise _ hstx,
    fun s g c hb hg hc => ⟨fun n hscan => ?complete, fun hscan hcap => State.reassembleLoop_keep _ hb hg hc hscan hcap,
      fun hscan hcap => ?overflow⟩⟩
  case complete =>
    obtain ⟨hrxbuf, -⟩ := State.dispatch_frame { s with rxbuf := c.drop n } (c.take n)
    have hn := (scanWindow_complete hscan).1
    rw [State.reassemble, State.reassembleLoop_complete _ hb hg hc hscan]
    exact State.reassembleLoop_eq_reassemble (hrxbuf ▸ length_drop_lt hb hc (by omega))
  case overflow =>
    rw [State.reassemble, State.reassembleLoop_resync _ hb hg hc hscan hcap]
    exact State.reassembleLoop_eq_reassemble (length_drop_lt hb hc Nat.one_pos)

end Sys2Proof.Machine

namespace Sys2Proof.Machine

variable {s t : State}

/-! ### The rows of the transition table (R169) -/

theorem State.retry_phase (s : State) :
    (s.retry.phase = .txDrain ∧ s.attempt < s.params.maxAttempts) ∨
      (s.retry.phase = .idle ∧ s.params.maxAttempts ≤ s.attempt) := by
  obtain ⟨hlt, e⟩ | ⟨hle, e⟩ := s.retry_cases
  · exact .inl ⟨congrArg State.phase e, hlt⟩
  · exact .inr ⟨congrArg State.phase e, hle⟩

theorem exec_disconnect_phase (he : exec .disconnect s = .next t) (hne : t.phase ≠ s.phase) :
    t.phase = .idle ∧ t.connected = false := by
  obtain ⟨-, rfl⟩ | ⟨-, -, rfl⟩ | ⟨-, -, u, ⟨-, rfl⟩ | ⟨-, rfl⟩, rfl⟩ := exec_disconnect_cases he
  · exact absurd rfl hne
  · exact absurd rfl hne
  · exact ⟨rfl, rfl⟩
  · exact absurd rfl hne

theorem exec_send_phase {frame : Bytes} {expectResponse : Bool} (he : exec (.send frame expectResponse) s = .next t)
    (hne : t.phase ≠ s.phase) : s.phase = .idle ∧ t.phase = .txDrain ∧ s.connected = true := by
  obtain ⟨-, rfl⟩ | ⟨-, -, rfl⟩ | ⟨hc, hp, rfl⟩ := exec_send_cases he
  · exact absurd rfl hne
  · exact absurd rfl hne
  · exact ⟨hp, rfl, hc⟩

theorem exec_rxChunk_phase {chunk : Bytes} (he : exec (.rxChunk chunk) s = .next t) (hne : t.phase ≠ s.phase) :
    (s.phase = .ackWait ∧ t.phase = .idle ∧ chunk = [s.params.ack] ∧ s.expect = false) ∨
    (s.phase = .ackWait ∧ t.phase = .rspWait ∧ chunk = [s.params.ack] ∧ s.expect = true) ∨
    (s.phase = .ackWait ∧ t.phase = s.retry.phase ∧ chunk = [s.params.nak]) ∨
    State.AnsweredFrom (s.rxbuf ++ chunk) s t := by
  obtain ⟨-, rfl⟩ | ⟨-, b, rfl, hb, rfl⟩ | ⟨-, -, -, rfl⟩ := exec_rxChunk_cases he
  · exact absurd rfl hne
  · obtain ⟨-, e⟩ | ⟨hp, rfl, hx, e⟩ | ⟨hp, rfl, hx, e⟩ | ⟨hp, hack, e⟩ := s.handshake_cases b
    · exact absurd (congrArg State.phase e) hne
    · exact .inr (.inl ⟨hp, congrArg State.phase e, rfl, hx⟩)
    · exact .inl ⟨hp, congrArg State.phase e, rfl, hx⟩
    · obtain rfl := hb.resolve_left hack
      exact .inr (.inr (.inl ⟨hp, congrArg State.phase e, rfl⟩))
  · obtain ⟨hsame, -⟩ | hanswer := State.reassemble_cases { s with rxbuf := s.rxbuf ++ chunk }
    · exact absurd hsame hne
    · exact .inr (.inr (.inr hanswer))

theorem exec_txDone_phase {ok : Bool} (he : exec (.txDone ok) s = .next t) (hne : t.phase ≠ s.phase) :
    (s.phase = .txDrain ∧ t.phase = .ackWait ∧ ok = true) ∨ (s.phase = .txDrain ∧ t.phase = .idle ∧ ok = false) := by
  obtain ⟨-, rfl⟩ | ⟨hp, hok, rfl⟩ | ⟨hp, hok, rfl⟩ := exec_txDone_cases he
  · exact absurd rfl hne
  · exact .inl ⟨hp, rfl, hok⟩
  · exact .inr ⟨hp, rfl, hok⟩

theorem exec_tick_phase (he : exec .tick s = .next t) (hne : t.phase ≠ s.phase) :
    (s.phase = .ackWait ∧ t.phase = s.retry.phase ∧ s.params.ackTimeout ≤ s.timer + 1) ∨
    (s.phase = .rspWait ∧ t.phase = .idle ∧ s.params.rspTimeout ≤ s.timer + 1) := by
  obtain ⟨-, rfl⟩ | ⟨hp, hle, rfl⟩ | ⟨-, -, rfl⟩ | ⟨hp, hle, rfl⟩ | ⟨-, -, rfl⟩ := exec_tick_cases he
  · exact absurd rfl hne
  · exact .inl ⟨hp, by rw [State.retry_eq, State.retry_eq, s.retried_timer], hle⟩
  · exact absurd rfl hne
  · exact .inr ⟨hp, rfl, hle⟩
  · exact absurd rfl hne

/-- Settles O58: the events of the table, each with its rows; every other event leaves the phase alone. -/
theorem phaseChangesOnlyByTheTable : Obligations.PhaseChangesOnlyByTheTable := by
  intro i s t he hne
  cases i
  case connect => obtain ⟨-, rfl⟩ | ⟨-, -, rfl⟩ | ⟨-, -, rfl⟩ := exec_connect_cases he <;> exact absurd rfl hne
  case disconnect =>
    obtain ⟨ht, hc⟩ := exec_disconnect_phase he hne
    iterate 9 right
    exact ⟨ht, hc, .inl rfl⟩
  case send frame expectResponse =>
    obtain ⟨hs, ht, hc⟩ := exec_send_phase he hne
    exact .inl ⟨hs, ht, hc, frame, expectResponse, rfl⟩
  case readReg =>
    obtain ⟨r, rfl⟩ := exec_readReg_next he
    exact absurd rfl hne
  case rxChunk chunk =>
    iterate 3 right
    obtain ⟨hs, ht, rfl, hx⟩ | ⟨hs, ht, rfl, hx⟩ | ⟨hs, ht, rfl⟩ | hanswer := exec_rxChunk_phase he hne
    · exact .inl ⟨hs, ht, rfl, hx⟩
    · exact .inr (.inl ⟨hs, ht, rfl, hx⟩)
    · rw [ht]
      obtain ⟨hr, ha⟩ | ⟨hr, ha⟩ := s.retry_phase
      · exact .inr (.inr (.inl ⟨hs, hr, .inl rfl, ha⟩))
      · exact .inr (.inr (.inr (.inl ⟨hs, hr, .inl rfl, ha⟩)))
    · exact .inr (.inr (.inr (.inr (.inl ⟨chunk, rfl, hanswer⟩))))
  case txDone =>
    obtain ⟨hs, ht, rfl⟩ | ⟨hs, ht, rfl⟩ := exec_txDone_phase he hne
    · exact .inr (.inl ⟨hs, ht, rfl⟩)
    · exact .inr (.inr (.inl ⟨hs, ht, rfl⟩))
  case tick =>
    iterate 5 right
    obtain ⟨hs, ht, hle⟩ | ⟨hs, ht, hle⟩ := exec_tick_phase he hne
    · rw [ht]
      obtain ⟨hr, ha⟩ | ⟨hr, ha⟩ := s.retry_phase
      · exact .inl ⟨hs, hr, .inr ⟨rfl, hle⟩, ha⟩
      · exact .inr (.inl ⟨hs, hr, .inr ⟨rfl, hle⟩, ha⟩)
    · exact .inr (.inr (.inr (.inl ⟨hs, ht, rfl, hle⟩)))
  case openDone => obtain ⟨-, rfl⟩ | ⟨-, -, rfl⟩ | ⟨-, -, rfl⟩ := exec_openDone_cases he <;> exact absurd rfl hne
  case reset =>
    obtain ⟨hreset, -⟩ := exec_reset_frame he
    iterate 9 right
    exact ⟨hreset.phase, hreset.connected, .inr rfl⟩
  all_goals
    obtain ⟨r, rfl⟩ := exec_codec_next rfl he
    exact absurd rfl hne

end Sys2Proof.Machine

namespace Sys2Proof.Machine

variable {s t : State}

/-! ### The results owed (R166) -/

/-- What a send owes in each phase. -/
def Phase.owed : Phase → Nat
  | .idle => 0
  | .txDrain | .ackWait | .rspWait => 1

@[simp] theorem Phase.owed_idle : Phase.owed .idle = 0 := rfl

theorem Phase.owed_of_ne_idle {p : Phase} (h : p ≠ .idle) : p.owed = 1 := by
  cases p
  case idle => exact absurd rfl h
  all_goals rfl

theorem State.sendOwed_eq (s : State) : s.sendOwed = s.phase.owed := by
  unfold State.sendOwed
  cases s.phase <;> rfl

/-- From `s` to `t`, the SEND results with those owed grow by `sends` and the CONNECT results with those owed by
`connects`. -/
def State.Conserves (s t : State) (sends connects : Nat) : Prop :=
  t.resultCount 0x32 + t.sendOwed = s.resultCount 0x32 + s.sendOwed + sends ∧
    t.resultCount 0x30 + t.connectOwed = s.resultCount 0x30 + s.connectOwed + connects

/-- Only the appended records, the two phases and the two `opening` flags matter. -/
theorem State.Conserves.of_append {new : List ResultRec} {sends connects : Nat} (hr : t.results = s.results ++ new)
    (hs : new.countP (·.op == 0x32) + t.phase.owed = s.phase.owed + sends)
    (hc : new.countP (·.op == 0x30) + t.opening.toNat = s.opening.toNat + connects) :
    s.Conserves t sends connects := by
  simp only [State.Conserves, State.resultCount, hr, List.countP_append, State.sendOwed_eq, State.connectOwed]
  omega

theorem State.Conserves.of_results_eq {sends connects : Nat} (hr : t.results = s.results)
    (hs : t.phase.owed = s.phase.owed + sends)
    (hc : t.opening.toNat = s.opening.toNat + connects) : s.Conserves t sends connects :=
  .of_append (new := []) (by simp [hr]) (by simpa using hs) (by simpa using hc)

theorem State.conserves_refl (s : State) : s.Conserves s 0 0 := ⟨rfl, rfl⟩

/-- A record that is no result of SEND or CONNECT pays for nothing. -/
theorem State.conserves_result {r : ResultRec} (hs : r.op ≠ (0x32 : Byte)) (hc : r.op ≠ (0x30 : Byte)) :
    s.Conserves (s.result r) 0 0 :=
  .of_append rfl (by simpa using hs) (by simpa using hc)

/-- A send that ends pays the one result it owed. -/
theorem State.finishSend_conserves (h : s.phase ≠ .idle) (code : ResultCode) (resp : Option Response) :
    s.Conserves (s.finishSend code resp) 0 0 :=
  .of_append rfl (by simp [Phase.owed_of_ne_idle h]) (by simp)

/-- A send that stays in flight owes its result still. -/
theorem State.Conserves.of_inFlight (hr : t.results = s.results) (ho : t.opening = s.opening) (hs : s.phase ≠ .idle)
    (ht : t.phase ≠ .idle) : s.Conserves t 0 0 :=
  .of_results_eq hr ((Phase.owed_of_ne_idle ht).trans (Phase.owed_of_ne_idle hs).symm) (by simp [ho])

theorem State.retry_conserves (h : s.phase ≠ .idle) : s.Conserves s.retry 0 0 := by
  obtain ⟨-, e⟩ | ⟨-, e⟩ := s.retry_cases <;> rw [e]
  · exact .of_inFlight rfl rfl h (by simp)
  · exact State.finishSend_conserves h _ _

theorem State.handshake_conserves (s : State) (b : Byte) : s.Conserves (s.handshake b) 0 0 := by
  obtain ⟨-, e⟩ | ⟨hp, -, -, e⟩ | ⟨hp, -, -, e⟩ | ⟨hp, -, e⟩ := s.handshake_cases b <;> rw [e]
  · exact s.conserves_refl
  · exact .of_inFlight rfl rfl (by simp [hp]) (by simp)
  · exact State.finishSend_conserves (by simp [hp]) _ _
  · exact State.retry_conserves (by simp [hp])

/-- Reassembly appends a result only where it ends the response wait of a send. -/
theorem State.reassemble_conserves (s : State) : s.Conserves s.reassemble 0 0 := by
  obtain ⟨-, hopening, -, -⟩ := s.reassemble_frame
  obtain ⟨hphase, hresults⟩ | ⟨hwait, hidle, f, -, -, -, hresults⟩ := s.reassemble_cases
  · exact .of_results_eq hresults (by simp [hphase]) (by simp [hopening])
  · exact .of_append hresults (by simp [hwait, hidle, Phase.owed]) (by simp [hopening])

theorem exec_connect_conserves {address : Bytes} {baud : Option Nat} (he : exec (.connect address baud) s = .next t) :
    s.Conserves t 0 1 := by
  obtain ⟨-, rfl⟩ | ⟨-, -, rfl⟩ | ⟨-, ho, rfl⟩ := exec_connect_cases he
  · exact .of_append rfl (by simp) (by simp [Nat.add_comm])
  · exact .of_append rfl (by simp) (by simp [Nat.add_comm])
  · exact .of_results_eq rfl rfl (by simp [ho])

theorem exec_openDone_conserves {ok : Bool} (he : exec (.openDone ok) s = .next t) : s.Conserves t 0 0 := by
  obtain ⟨-, rfl⟩ | ⟨ho, -, rfl⟩ | ⟨ho, -, rfl⟩ := exec_openDone_cases he
  · exact State.conserves_refl _
  · exact .of_append rfl (by simp) (by simp [ho])
  · exact .of_append rfl (by simp) (by simp [ho])

theorem exec_disconnect_conserves (he : exec .disconnect s = .next t) : s.Conserves t 0 0 := by
  obtain ⟨ho, rfl⟩ | ⟨-, -, rfl⟩ | ⟨-, -, u, ⟨hp, rfl⟩ | ⟨-, rfl⟩, rfl⟩ := exec_disconnect_cases he
  · exact .of_append (List.append_assoc _ _ _) (by simp) (by simp [ho])
  · exact State.conserves_result (by simp) (by simp)
  · exact .of_append (List.append_assoc _ _ _) (by simp [Phase.owed_of_ne_idle hp]) (by simp)
  · exact .of_append rfl (by simp) (by simp)

theorem exec_send_conserves {frame : Bytes} {expectResponse : Bool}
    (he : exec (.send frame expectResponse) s = .next t) : s.Conserves t 1 0 := by
  obtain ⟨-, rfl⟩ | ⟨-, -, rfl⟩ | ⟨-, hp, rfl⟩ := exec_send_cases he
  · exact .of_append rfl (by simp [Nat.add_comm]) (by simp)
  · exact .of_append rfl (by simp [Nat.add_comm]) (by simp)
  · exact .of_results_eq rfl (by simp [hp, Phase.owed]) rfl

theorem exec_readReg_conserves {n : Nat} (he : exec (.readReg n) s = .next t) : s.Conserves t 0 0 := by
  simp only [exec, execReadReg] at he
  split at he <;> cases he <;> exact State.conserves_result (by simp) (by simp)

theorem exec_rxChunk_conserves {chunk : Bytes} (he : exec (.rxChunk chunk) s = .next t) : s.Conserves t 0 0 := by
  obtain ⟨-, rfl⟩ | ⟨-, b, -, -, rfl⟩ | ⟨-, -, -, rfl⟩ := exec_rxChunk_cases he
  · exact State.conserves_refl _
  · exact s.handshake_conserves b
  · exact State.reassemble_conserves { s with rxbuf := s.rxbuf ++ chunk }

theorem exec_txDone_conserves {ok : Bool} (he : exec (.txDone ok) s = .next t) : s.Conserves t 0 0 := by
  obtain ⟨-, rfl⟩ | ⟨hp, -, rfl⟩ | ⟨hp, -, rfl⟩ := exec_txDone_cases he
  · exact State.conserves_refl _
  · exact .of_inFlight rfl rfl (by simp [hp]) (by simp)
  · exact State.finishSend_conserves (by simp [hp]) _ _

theorem exec_tick_conserves (he : exec .tick s = .next t) : s.Conserves t 0 0 := by
  obtain ⟨-, rfl⟩ | ⟨hp, -, rfl⟩ | ⟨-, -, rfl⟩ | ⟨hp, -, rfl⟩ | ⟨-, -, rfl⟩ := exec_tick_cases he
  · exact State.conserves_refl _
  · exact State.retry_conserves (s := { s with timer := s.timer + 1 }) (by simp [hp])
  · exact .of_results_eq rfl rfl rfl
  · exact State.finishSend_conserves (s := { s with timer := s.timer + 1 }) (by simp [hp]) _ _
  · exact .of_results_eq rfl rfl rfl

theorem opcode_ne_of_codec {i : Instr} (hi : isCodec i = true) : i.opcode ≠ .send ∧ i.opcode ≠ .connect := by
  cases i <;> simp_all [isCodec, Instr.opcode]

/-- The one result of a codec command carries its own opcode. -/
theorem exec_codec_conserves {i : Instr} (hi : isCodec i = true) (he : exec i s = .next t) : s.Conserves t 0 0 := by
  obtain ⟨answer, -, h⟩ := exec_codec hi
  obtain ⟨hsend, hconnect⟩ := opcode_ne_of_codec hi
  rw [h] at he
  cases ha : answer s.params <;> rw [ha] at he <;> cases he <;>
    exact State.conserves_result (Opcode.byte_injective.mt hsend) (Opcode.byte_injective.mt hconnect)

/-- Settles O56: every event pays for what it owes, by the records it appends. -/
theorem oneResultForEachSendAndConnect : Obligations.OneResultForEachSendAndConnect := by
  intro i s t he hreset
  cases i
  case connect => exact exec_connect_conserves he
  case disconnect => exact exec_disconnect_conserves he
  case send => exact exec_send_conserves he
  case readReg => exact exec_readReg_conserves he
  case rxChunk => exact exec_rxChunk_conserves he
  case txDone => exact exec_txDone_conserves he
  case tick => exact exec_tick_conserves he
  case openDone => exact exec_openDone_conserves he
  case reset => exact absurd rfl hreset
  all_goals exact exec_codec_conserves rfl he

end Sys2Proof.Machine

namespace Sys2Proof.Machine

variable {s t : State}

/-! ### The ticks a send can still take (R167) -/

theorem State.ticksLeft_of_txDrain (h : s.phase = .txDrain) :
    s.ticksLeft = (s.params.maxAttempts + 1 - s.attempt) * s.params.ackTimeout + s.params.rspTimeout := by
  simp only [State.ticksLeft, h]

theorem State.ticksLeft_of_ackWait (h : s.phase = .ackWait) :
    s.ticksLeft = (s.params.maxAttempts - s.attempt) * s.params.ackTimeout + (s.params.ackTimeout - s.timer) +
      s.params.rspTimeout := by
  simp only [State.ticksLeft, h]

theorem State.ticksLeft_of_rspWait (h : s.phase = .rspWait) : s.ticksLeft = s.params.rspTimeout - s.timer := by
  simp only [State.ticksLeft, h]

/-- The attempts after this one, and this one, are at most all attempts. -/
theorem State.SendInv.attemptsLeft_mul_le (h : s.SendInv) (hp : s.phase ≠ .idle) (n : Nat) :
    (s.params.maxAttempts - s.attempt) * n + n ≤ s.params.maxAttempts * n := by
  have hpos := h.attempt_pos hp
  have hmax := h.attemptBound
  calc (s.params.maxAttempts - s.attempt) * n + n
      = (s.params.maxAttempts - s.attempt + 1) * n := (Nat.succ_mul _ _).symm
    _ ≤ s.params.maxAttempts * n := Nat.mul_le_mul_right n (by omega)

/-- In the drain this attempt's ACK wait is still to come. -/
theorem State.SendInv.ticksLeft_of_txDrain (h : s.SendInv) (hp : s.phase = .txDrain) :
    s.ticksLeft =
      (s.params.maxAttempts - s.attempt) * s.params.ackTimeout + s.params.ackTimeout + s.params.rspTimeout := by
  rw [State.ticksLeft_of_txDrain hp, Nat.sub_add_comm h.attemptBound, Nat.succ_mul]

theorem State.SendInv.ticksLeft_le (h : s.SendInv) (hp : s.phase ≠ .idle) :
    s.ticksLeft ≤ s.params.maxAttempts * s.params.ackTimeout + s.params.rspTimeout := by
  have hle := h.attemptsLeft_mul_le hp s.params.ackTimeout
  cases hphase : s.phase with
  | idle => exact absurd hphase hp
  | txDrain => rw [h.ticksLeft_of_txDrain hphase]; omega
  | ackWait => rw [State.ticksLeft_of_ackWait hphase]; omega
  | rspWait => rw [State.ticksLeft_of_rspWait hphase]; omega

/-- A retry gives up the rest of this attempt's ACK wait. -/
theorem State.retry_ticksLeft (s : State) :
    s.retry.phase = .idle ∨
      s.retry.ticksLeft = (s.params.maxAttempts - s.attempt) * s.params.ackTimeout + s.params.rspTimeout := by
  obtain ⟨-, e⟩ | ⟨-, e⟩ := s.retry_cases <;> rw [e]
  · refine .inr ?_
    rw [State.ticksLeft_of_txDrain rfl]
    simp
  · exact .inl rfl

theorem State.handshake_ticksLeft_le (s : State) (b : Byte) :
    (s.handshake b).phase = .idle ∨ (s.handshake b).ticksLeft ≤ s.ticksLeft := by
  obtain ⟨-, e⟩ | ⟨hp, -, -, e⟩ | ⟨-, -, -, e⟩ | ⟨hp, -, e⟩ := s.handshake_cases b <;> rw [e]
  · exact .inr le_rfl
  · refine .inr ?_
    rw [State.ticksLeft_of_ackWait hp]
    exact Nat.le_add_left _ _
  · exact .inl rfl
  · rw [State.ticksLeft_of_ackWait hp]
    exact s.retry_ticksLeft.imp_right fun h => by omega

/-- Reassembly ends a response wait or leaves its timer running (R162). -/
theorem State.reassemble_ticksLeft_le (s : State) :
    s.reassemble.phase = .idle ∨ s.reassemble.ticksLeft ≤ s.ticksLeft := by
  refine State.reassemble_induct (fun u => u.phase = .idle ∨ u.ticksLeft ≤ s.ticksLeft) (fun _ _ h => h)
    (fun _ h => h) (fun u f h => ?_) s (.inr le_rfl)
  obtain ⟨-, e⟩ | ⟨-, e⟩ | ⟨-, -, e⟩ | ⟨-, e⟩ := u.dispatch_cases f <;> rw [e]
  · exact h
  · exact h
  · exact .inl rfl
  · exact h

theorem exec_disconnect_ticksLeft_le (he : exec .disconnect s = .next t) :
    t.phase = .idle ∨ t.ticksLeft ≤ s.ticksLeft := by
  obtain ⟨-, rfl⟩ | ⟨-, -, rfl⟩ | ⟨-, -, u, ⟨-, rfl⟩ | ⟨hp, rfl⟩, rfl⟩ := exec_disconnect_cases he
  · exact .inr le_rfl
  · exact .inr le_rfl
  · exact .inl rfl
  · exact .inl hp

theorem exec_rxChunk_ticksLeft_le {chunk : Bytes} (he : exec (.rxChunk chunk) s = .next t) :
    t.phase = .idle ∨ t.ticksLeft ≤ s.ticksLeft := by
  obtain ⟨-, rfl⟩ | ⟨-, b, -, -, rfl⟩ | ⟨-, -, -, rfl⟩ := exec_rxChunk_cases he
  · exact .inr le_rfl
  · exact s.handshake_ticksLeft_le b
  · exact State.reassemble_ticksLeft_le { s with rxbuf := s.rxbuf ++ chunk }

theorem exec_txDone_ticksLeft_le (h : s.SendInv) {ok : Bool} (he : exec (.txDone ok) s = .next t) :
    t.phase = .idle ∨ t.ticksLeft ≤ s.ticksLeft := by
  obtain ⟨-, rfl⟩ | ⟨hp, -, rfl⟩ | ⟨-, -, rfl⟩ := exec_txDone_cases he
  · exact .inr le_rfl
  · exact .inr (h.ticksLeft_of_txDrain hp).ge
  · exact .inl rfl

theorem State.ticksLeft_timer_succ_lt (h : s.SendInv) (hp : s.phase = .ackWait ∨ s.phase = .rspWait) :
    State.ticksLeft { s with timer := s.timer + 1 } < s.ticksLeft := by
  obtain hp | hp := hp
  · have hlt := h.ackTimerBound hp
    simp only [State.ticksLeft, State.params, hp] at hlt ⊢
    omega
  · have hlt := h.rspTimerBound hp
    simp only [State.ticksLeft, State.params, hp] at hlt ⊢
    omega

/-- A TICK in a wait takes one from the budget, or more where it ends the wait. -/
theorem exec_tick_ticksLeft_lt (h : s.SendInv) (hp : s.phase ≠ .idle) (hdrain : s.phase ≠ .txDrain)
    (he : exec .tick s = .next t) : t.phase = .idle ∨ t.ticksLeft < s.ticksLeft := by
  obtain ⟨hno, -⟩ | ⟨hack, -, rfl⟩ | ⟨hack, -, rfl⟩ | ⟨-, -, rfl⟩ | ⟨hrsp, -, rfl⟩ := exec_tick_cases he
  · exact absurd hno (by simp [hp, hdrain])
  · have hlt := h.ackTimerBound hack
    have hretry := State.retry_ticksLeft { s with timer := s.timer + 1 }
    rw [State.ticksLeft_of_ackWait hack]
    exact hretry.imp_right fun hleft => hleft.trans_lt (by simp only [State.params] at hlt ⊢; omega)
  · exact .inr (State.ticksLeft_timer_succ_lt h (.inl hack))
  · exact .inl rfl
  · exact .inr (State.ticksLeft_timer_succ_lt h (.inr hrsp))

/-- In flight, no event raises the budget. -/
theorem exec_ticksLeft_le {i : Instr} (h : s.SendInv) (hp : s.phase ≠ .idle) (he : exec i s = .next t) :
    t.phase = .idle ∨ t.ticksLeft ≤ s.ticksLeft := by
  cases i
  case connect => obtain ⟨-, rfl⟩ | ⟨-, -, rfl⟩ | ⟨-, -, rfl⟩ := exec_connect_cases he <;> exact .inr le_rfl
  case disconnect => exact exec_disconnect_ticksLeft_le he
  case send =>
    obtain ⟨-, rfl⟩ | ⟨-, -, rfl⟩ | ⟨-, hidle, -⟩ := exec_send_cases he
    · exact .inr le_rfl
    · exact .inr le_rfl
    · exact absurd hidle hp
  case readReg =>
    obtain ⟨r, rfl⟩ := exec_readReg_next he
    exact .inr le_rfl
  case rxChunk => exact exec_rxChunk_ticksLeft_le he
  case txDone => exact exec_txDone_ticksLeft_le h he
  case tick =>
    by_cases hdrain : s.phase = .txDrain
    · rw [exec_tick_of_noWait (.inr hdrain)] at he
      cases he
      exact .inr le_rfl
    · exact (exec_tick_ticksLeft_lt h hp hdrain he).imp_right Nat.le_of_lt
  case openDone => obtain ⟨-, rfl⟩ | ⟨-, -, rfl⟩ | ⟨-, -, rfl⟩ := exec_openDone_cases he <;> exact .inr le_rfl
  case reset => exact .inl (exec_reset_frame he).1.phase
  all_goals
    obtain ⟨r, rfl⟩ := exec_codec_next rfl he
    exact .inr le_rfl

/-- Settles O57: the bound is that of the attempts left, and each event spends from the budget. -/
theorem sendEndsWithinItsTickBound : Obligations.SendEndsWithinItsTickBound := by
  intro i s t hinv hp he
  obtain ⟨-, h⟩ := State.inv_iff.1 hinv
  refine ⟨h.ticksLeft_le hp, ?_⟩
  obtain hidle | hle := exec_ticksLeft_le h hp he
  · exact .inl hidle
  by_cases htick : i = .tick ∧ s.phase ≠ .txDrain
  · obtain ⟨rfl, hdrain⟩ := htick
    exact (exec_tick_ticksLeft_lt h hp hdrain he).imp_right fun hlt => ⟨hle, fun _ _ => hlt⟩
  · exact .inr ⟨hle, fun hi hdrain => absurd ⟨hi, hdrain⟩ htick⟩

end Sys2Proof.Machine

/-! PROOF. The statements of spec/70_reset_and_hazards.md: RESET (R215), the wait for the next event (R216) and the race
of a NACK with the TICK that expires the ACK wait (R222). -/

namespace Sys2Proof.Machine

variable {s : State}

/-! ### After a retry, the events of the ACK wait are stale (R158, R159, R222) -/

@[simp] theorem State.retried_connected (s : State) : s.retried.connected = s.connected := by
  unfold State.retried
  split <;> rfl

@[simp] theorem State.retried_params (s : State) : s.retried.params = s.params := by
  unfold State.retried
  split <;> rfl

/-- A retry ends the ACK wait: the frame drains once more, or the send is over. -/
theorem State.retried_phase (s : State) : s.retried.phase = .idle ∨ s.retried.phase = .txDrain := by
  rw [← s.retry_eq]
  exact s.retry_phase.symm.imp And.left And.left

theorem exec_tick_retried (s : State) : exec .tick s.retried = .next s.retried :=
  exec_tick_of_noWait s.retried_phase

theorem exec_nak_of_ackWait (hc : s.connected = true) (hp : s.phase = .ackWait) :
    exec (.rxChunk [s.params.nak]) s = .next s.retried := by
  rw [exec_rxChunk_handshake hc (.inr rfl), State.handshake_nak hp]

theorem exec_nak_retried (hc : s.connected = true) : exec (.rxChunk [s.params.nak]) s.retried = .next s.retried := by
  have hp : s.retried.phase ≠ .ackWait := by obtain hp | hp := s.retried_phase <;> simp [hp]
  rw [exec_rxChunk_handshake (by simp [hc]) (.inr (by simp)), State.handshake_of_ne_ackWait hp]

/-- Settles O60: the first of the two events retries, and the second finds no ACK wait. -/
theorem nackAndTimeoutRaceIsBenign : Obligations.NackAndTimeoutRaceIsBenign :=
  fun s hc hp hlast =>
    ⟨exec_tick_ackTimeout hp hlast.ge, exec_nak_retried hc, exec_nak_of_ackWait hc hp, exec_tick_retried s⟩

/-! ### The wait for the next event (R216) and RESET (R215) -/

/-- Settles O2, by the first case of the step. -/
theorem noEventNoChange : Obligations.NoEventNoChange := fun _ => step_of_input_nil

/-- Settles O49, field by field: RESET writes the nine engine fields, each with the value the reset state has. -/
theorem resetRestoresTheEngine : Obligations.ResetRestoresTheEngine := fun _ => rfl

end Sys2Proof.Machine
